-- ==== Sys2Proof/Word.lean ====
section
/-! DEFINITION. The plain types every other file uses: bytes, identities, handles, segments, the two ports, a
character as a line interface reads it. -/

namespace Sys2Proof

/-- One byte of a frame, and every 8-bit code, address, class and generation. -/
abbrev Byte := BitVec 8

/-- A node identity (R2). -/
abbrev Ident := BitVec 48

/-- A handle, 0 to 127 (R1). -/
abbrev Handle := Fin 128

/-- A segment number, 0 to 3. -/
abbrev Seg := Fin 4

/-- The position of a request slot in its port. A host cannot see it (R168). -/
abbrev SlotIx := Fin 8

/-- The two command ports. -/
inductive PortId where
  | a
  | b
  deriving DecidableEq, Repr

/-- The port that is not `p`. -/
def PortId.other : PortId → PortId
  | .a => .b
  | .b => .a

/-- One character as the part's bit clock reads it off a line (R52, R53): whether the start bit was still dominant at its
middle, the eight data bits, the mark bit, and whether the stop bit was recessive. -/
structure LineChar where
  startDominant : Bool
  data : Byte
  mark : Bool
  stopRecessive : Bool
  deriving DecidableEq, Repr

/-- What stands measured at the end of a poll period: the timer ticks counted since its start (R101, R208) and the line's
recessive run in bit times (R97). -/
structure PollCount where
  ticks : Nat
  run : Nat
  deriving DecidableEq, Repr

/-- The setup image as 18 bytes (R216). -/
abbrev Image := Vector Byte 18

/-- Every handle, in ascending order. -/
def allHandles : List Handle := List.finRange 128

/-- Every segment, in ascending order. -/
def allSegments : List Seg := [0, 1, 2, 3]

/-- A small number as the byte that a frame carries. -/
def byte (n : Nat) : Byte := BitVec.ofNat 8 n

/-- A Boolean as the byte 0 or 1. -/
def boolByte (b : Bool) : Byte := if b then 1 else 0

end Sys2Proof
end

