-- ==== Sys2Proof/Syntax.lean ====
section
/-! DEFINITION. The commands of the block: one constructor for each row of spec/opcode_table.json, in the table's order.
A row that dispatches a request names the port only: the request's own fields stand in the request slot (R170). A row
that a measured time brings about carries that time (log 5). -/

namespace Sys2Proof

/-- The commands. -/
inductive Instr where
  /-- EXCHANGE_START (R160): the host asserts the port's select line. -/
  | exchangeStart (p : PortId)
  /-- EXCHANGE_END (R160, R165): the host releases select, having clocked in the bits `sent`, in the order clocked (log 23). -/
  | exchangeEnd (p : PortId) (sent : List Bool)
  /-- DESCRIBE (R174). -/
  | describe (p : PortId)
  /-- GET_NOTICES (R183). -/
  | getNotices (p : PortId)
  /-- CLEAR_NOTICES (R184). -/
  | clearNotices (p : PortId)
  /-- SET_NOTICE_MASK (R185). -/
  | setNoticeMask (p : PortId)
  /-- GET_CHANGES (R187). -/
  | getChanges (p : PortId)
  /-- RESTART_FULL (R196). -/
  | restartFull (p : PortId)
  /-- RESTART_RETAIN (R197). -/
  | restartRetain (p : PortId)
  /-- QUIET (R203). -/
  | quiet (p : PortId)
  /-- WAKE (R206). -/
  | wake (p : PortId)
  /-- SEED (R200, R201). -/
  | seed (p : PortId)
  /-- SEED_END (R202). -/
  | seedEnd (p : PortId)
  /-- FIND_ID (R22). -/
  | findId (p : PortId)
  /-- FIND_ADDR (R23). -/
  | findAddr (p : PortId)
  /-- LIST (R24). -/
  | list (p : PortId)
  /-- READ_ENTRY (R25). -/
  | readEntry (p : PortId)
  /-- SET_LABEL (R38). -/
  | setLabel (p : PortId)
  /-- SET_STRIDE (R41). -/
  | setStride (p : PortId)
  /-- CLAIM (R39). -/
  | claim (p : PortId)
  /-- UNCLAIM (R40). -/
  | unclaim (p : PortId)
  /-- WATCH (R43). -/
  | watch (p : PortId)
  /-- UNWATCH (R44). -/
  | unwatch (p : PortId)
  /-- SET_SEGMENT (R74). -/
  | setSegment (p : PortId)
  /-- GET_SEGMENT (R75). -/
  | getSegment (p : PortId)
  /-- NODE_READ (R87). -/
  | nodeRead (p : PortId)
  /-- NODE_WRITE (R88). -/
  | nodeWrite (p : PortId)
  /-- BROADCAST (R89). -/
  | broadcast (p : PortId)
  /-- DISCOVER (R121). -/
  | discover (p : PortId)
  /-- MOVE (R145). -/
  | move (p : PortId)
  /-- RETIRE (R153). -/
  | retire (p : PortId)
  /-- INTAKE_ADMISSION (R78): the intake arbiter of segment `g` acts on a free queue place. -/
  | intakeAdmission (g : Seg)
  /-- PICK (R80): the engine of segment `g` chooses its next line activity. -/
  | pick (g : Seg)
  /-- IDLE_GAP_ELAPSED (R57): the line has been recessive for `run` bit times. -/
  | idleGapElapsed (g : Seg) (run : Nat)
  /-- STUCK (R58): the line has been dominant for `run` bit times of the wait to send. -/
  | stuck (g : Seg) (run : Nat)
  /-- CONTENTION (R63): bit `bit` of the part's own frame, counted from its first start bit, reads dominant. -/
  | contention (g : Seg) (bit : Nat)
  /-- BREAK_RELEASE (R63): the part's own break has lasted `run` bit times. -/
  | breakRelease (g : Seg) (run : Nat)
  /-- ACKNOWLEDGE_SLOT (R55): the middle of the acknowledge slot is read. -/
  | acknowledgeSlot (g : Seg) (dominant : Bool)
  /-- COMMAND_FRAME_SENT (R70): the stop bit of the second CRC character ends. -/
  | commandFrameSent (g : Seg)
  /-- REPLY_WINDOW_TIMEOUT (R60): `elapsed` bit times after the frame no start bit has begun. -/
  | replyWindowTimeout (g : Seg) (elapsed : Nat)
  /-- CHARACTER_GAP_TIMEOUT (R60): `elapsed` bit times after a reply character no start bit has begun. -/
  | characterGapTimeout (g : Seg) (elapsed : Nat)
  /-- REPLY_CHARACTER (R61). -/
  | replyCharacter (g : Seg) (ch : LineChar)
  /-- COLLISION (R62): a dominant run has reached `run` bit times. -/
  | collision (g : Seg) (run : Nat)
  /-- CONTEST_SLOTS_END (R69): slot 48 ends; `read` holds slot 1 in its most significant bit, recessive as 1. -/
  | contestSlotsEnd (g : Seg) (read : Ident)
  /-- CLASS_CHARACTER (R69). -/
  | classCharacter (g : Seg) (ch : LineChar)
  /-- CLASS_WINDOW_TIMEOUT (R69): `elapsed` bit times after the slots no class character has started. -/
  | classWindowTimeout (g : Seg) (elapsed : Nat)
  /-- POLL_TIMER_EXPIRY (R102), with the ticks counted since the running period started (R101, R208) and the line's recessive
  run at that moment (R97). -/
  | pollTimerExpiry (g : Seg) (count : PollCount)
  /-- DRAIN_COMPLETE (R204). -/
  | drainComplete
  /-- RESET_TAKEN (R190): RESET has been asserted for `width` microseconds. -/
  | resetTaken (width : Nat)
  /-- POWER_APPLIED (R190). -/
  | powerApplied
  /-- RESET_RELEASED (R191). -/
  | resetReleased
  /-- SETTLING_COMPLETE (R191): `cycles` reference cycles have been counted since RESET was released. -/
  | settlingComplete (cycles : Nat)
  /-- SETUP_READ_END (R193, R195): the setup read ends; `line` holds the levels that the part has read off the setup data
  line, high as true: the answer bit at the 9th clock, then the image's bits if the memory answered (log 24). -/
  | setupReadEnd (line : List Bool)
  /-- LINE_RETURNS_RECESSIVE (R53): the line returns recessive after a dominant run of `run` bit times. -/
  | lineReturnsRecessive (g : Seg) (run : Nat)
  deriving DecidableEq, Repr

end Sys2Proof
end

