-- ==== Sys2Proof/Config.lean ====
section
/-! DEFINITION. What one implementation fixes and the spec leaves open (free values, without a body), the capacities of
00_scope.md, and the times of 03_the_segment_line.md and 10_restart_seeding_and_quiet_operation.md. -/

namespace Sys2Proof.Config

/-- FREE VALUE (log 7): whether the filter passes the `n`-th RESET pulse of 16 up to 64 microseconds (R190). -/
opaque pulseTaken : Nat → Bool

/-- FREE VALUE (log 8): the reset value of the intake mode of a segment that an accepted image does not fit, true for
port-A-first. R73 takes it from the setup image, R194 says that an unfitted segment's values are not used. -/
opaque unfittedPortAFirst : Seg → Bool

/-- FREE VALUE (log 9): whether the pass of a segment being switched off ends NONE_LEFT (true) or OFF when its running
contest ends NO_CONTENDER (R126, R137 against R92). -/
opaque noneLeftBeforeOff : Seg → Bool

/-- FREE VALUE (log 29): whether a break of the part's own that is under way when its segment's engine becomes OFF runs on to
its 24 bit times (R71) or ends there, the line released (R49, R72). -/
opaque breakOutlastsOff : Seg → Bool

/-- Places in one segment queue (R77). -/
def queuePlaces : Nat := 8

/-- Contests in one discovery pass (R137). -/
def passLimit : Nat := 64

/-- Handles in one LIST response (R24). -/
def listMax : Nat := 12

/-- Handles in one GET_CHANGES response (R187). -/
def changesMax : Nat := 16

/-- Idle gap before a frame, in bit times (R57). -/
def idleGap : Nat := 4

/-- A stuck line, and the recessive run that recovers one, in bit times (R58, R97). -/
def stuckTime : Nat := 64

/-- A break, in bit times (R62). -/
def breakTime : Nat := 20

/-- The part's own break, in bit times (R63, R71). -/
def ownBreakTime : Nat := 24

/-- The reply window and the class window, in bit times (R60, R68). -/
def window : Nat := 40

/-- The longest gap between two reply characters, in bit times (R60). -/
def characterGap : Nat := 12

/-- The shortest poll period, in ticks (R101). -/
def shortestPeriod : Nat := 10

/-- Reference cycles in a group of five ticks (R208). -/
def groupCycles : Nat := 98304

/-- Bits of the setup image (R193). -/
def imageBits : Nat := 144

/-- Reference cycles of settling (R191). -/
def settlingCycles : Nat := 4096

/-- A RESET pulse below this many microseconds is ignored (R190). -/
def pulseIgnored : Nat := 16

/-- A RESET pulse of this many microseconds or more is taken (R190). -/
def pulseLong : Nat := 64

end Sys2Proof.Config
end

