-- ==== Sys2Proof/Machine/State.lean ====
section
/-! DEFINITION. The state of the DX612 as plain data, and the state after reset. INVENTORY.md lists every field with its
rule. Types first (directory, line interface, engine, port, restart controller), then `State`, `State.reset`. -/

namespace Sys2Proof.Machine

/-- Why a step could stop with a fault. The spec gives every step an effect, so no command faults: no constructor. -/
inductive Fault where
  deriving DecidableEq, Repr

/-- Why a step could be refused. -/
inductive Refusal where
  /-- Raised only by an arm of `exec` whose command has no meaning yet; safe (the step stops). No arm raises it now. -/
  | notModelled (mnemonic : String)
  deriving DecidableEq, Repr

/-! ### The directory (01_the_node_directory.md) -/

/-- The state an entry had before a MOVE or RETIRE of it was admitted to its queue (R11). -/
inductive Prior where
  | seeded
  | present
  | absent
  | conflict
  deriving DecidableEq, Repr

/-- The seven entry states, with the transient fields that are present exactly in MOVING and RETIRING (R1, R11, R14). -/
inductive EntryState where
  | free
  | seeded
  | present
  | absent
  | conflict
  | moving (prior : Prior) (target : Byte)
  | retiring (prior : Prior) (force : Bool)
  deriving DecidableEq, Repr

/-- The poll stride with the stride counter that accompanies it (R6). -/
structure Stride where
  value : Nat
  counter : Nat
  deriving DecidableEq, Repr

/-- One directory entry (R1). -/
structure Entry where
  state : EntryState
  generation : Byte
  identity : Ident
  cls : Byte
  segment : Seg
  address : Byte
  label : Option (BitVec 16)
  stride : Option Stride
  silence : Nat
  age : Nat
  claim : Option PortId
  watchA : Bool
  watchB : Bool
  deriving DecidableEq, Repr

/-- A FREE entry with the values of R13, generation `gen` and the given watch set. -/
def freeEntry (gen : Byte) (watchA watchB : Bool) : Entry :=
  { state := .free, generation := gen, identity := 0, cls := 0, segment := 0, address := 0, label := none, stride := none,
    silence := 0, age := 0, claim := none, watchA := watchA, watchB := watchB }

/-- One map slot of an address map (R15). -/
inductive MapSlot where
  | empty
  | held (h : Handle)
  | reserved (h : Handle)
  | joinHold
  deriving DecidableEq, Repr

/-- The map slots of one segment; place `k` is line address `k + 1` (R15). -/
abbrev AddressMap := Vector MapSlot 200

/-! ### Requests and responses (08_command_ports.md, 11_frame_and_setup_formats.md) -/

/-- The 29 request kinds (R164). -/
inductive ReqKind where
  | describe | getNotices | clearNotices | setNoticeMask | getChanges | portReset | restart | quiet | wake
  | seed | seedEnd | findId | findAddr | list | readEntry
  | setLabel | setStride | claim | unclaim | watch | unwatch
  | nodeRead | nodeWrite | broadcast | discover | move | retire
  | setSegment | getSegment
  deriving DecidableEq, Repr

/-- The response status codes (R212). -/
inductive Status where
  | ok | badRequest | badHandle | freeEntry | notFound | stale | claimed | notPermitted | wrongState | busyEntry | conflict
  | addressInUse | outOfPool | identityClash | directoryFull | segmentOff | segmentFault | noReply | refused | collision
  | framing | contention
  deriving DecidableEq, Repr

/-- The run state a WAKE recorded (R206). -/
inductive Woke where
  | run
  | quieting
  | quiet
  deriving DecidableEq, Repr

/-- A request in its slot: kind, tag and body as the frame gave them (R164), and what a WAKE recorded (R206). -/
structure Request where
  kind : ReqKind
  tag : Byte
  body : List Byte
  woke : Woke
  deriving DecidableEq, Repr

/-- A response in its slot (R173). -/
structure Response where
  kind : ReqKind
  tag : Byte
  status : Status
  generation : Byte
  body : List Byte
  deriving DecidableEq, Repr

/-- A request slot (R168): a COMPLETED one holds its request and the response to it. -/
inductive Slot where
  | free
  | waiting (r : Request)
  | dispatched (r : Request)
  | onLine (r : Request)
  | completed (q : Request) (r : Response)
  deriving DecidableEq, Repr

/-- The outcome of an exchange (R165, R167). -/
inductive ExchangeOutcome where
  | none
  | taken
  | full
  | badFrame
  | notNow
  deriving DecidableEq, Repr

/-- An exchange in progress: the status byte composed at its start, the response copied for it, and the slot that copy
came from while that slot still holds it (R160 to R163). -/
structure Exchange where
  status : Byte
  response : Option Response
  slot : Option SlotIx
  deriving DecidableEq, Repr

/-! ### Notice units (09_notices_and_change_sets.md) -/

/-- A notice unit: sticky flags (bit k is the flag at position k of the R178 table; bits 0 and 1 are levels and stay
clear here), the mask and the change set. -/
structure NoticeUnit where
  sticky : BitVec 13
  mask : BitVec 13
  changed : Vector Bool 128
  deriving DecidableEq, Repr

/-- A command port with its notice unit. `waitsFor` is the segment whose full queue the head of the WAITING list has
found at its dispatch (R78, R79). -/
structure PortState where
  slots : Vector Slot 8
  waiting : List SlotIx
  completed : List SlotIx
  waitsFor : Option Seg
  previous : ExchangeOutcome
  exchange : Option Exchange
  notices : NoticeUnit
  deriving DecidableEq, Repr

/-! ### Line interfaces (03_the_segment_line.md) -/

/-- The two levels of a line (R49). -/
inductive Level where
  | dominant
  | recessive
  deriving DecidableEq, Repr

/-- The line functions (R54, R215). -/
inductive Function where
  | presence | readItem | writeItem | setAddress | release
  | callUnbound | assign | releaseUnless | park | unparkAll | broadcastWrite
  deriving DecidableEq, Repr

/-- A command frame without its CRC (R54). -/
structure Frame where
  function : Function
  address : Byte
  item : Byte
  length : Byte
  payload : List Byte
  deriving DecidableEq, Repr

/-- The phases of an attempt (R68, R70). `address` covers ADDRESS and ACK of an addressed frame and ADDRESS and BODY of an
all-call frame, `slots` covers LEAD_IN and SLOTS (log 6); `ownBreak` is the part's break after contention (R63). -/
inductive AttemptPhase where
  | idleWait
  | address
  | body
  | ownBreak
  | replyWait
  | reply
  | slots
  | classWait
  deriving DecidableEq, Repr

/-- An attempt in progress: its frame, its phase, the reply characters received so far, whether the last of them had a
dominant stop bit (R53), and the identity read in the contest slots (R68). -/
structure Attempt where
  frame : Frame
  phase : AttemptPhase
  received : List Byte
  openRun : Bool
  slotsRead : Ident
  deriving DecidableEq, Repr

/-- A line interface. `level` is the filtered level and `pin` the raw one as everything but a break of the part's own makes it
(R49, R50; log 36); `held` counts the reference cycles for which the raw level has differed from the filtered one. The runs
are in bit times, as last measured (log 5). `driving` says that the part drives a break of its own (R63, R71; log 29). -/
structure Line where
  level : Level
  pin : Level
  held : Nat
  recessiveRun : Nat
  dominantRun : Nat
  driving : Bool
  attempt : Option Attempt
  deriving DecidableEq, Repr

/-! ### Segment engines (04 to 07) -/

/-- The engine states (R72). -/
inductive EngineState where
  | off
  | idle
  | transaction
  | contest
  | fault
  deriving DecidableEq, Repr

/-- The intake modes (R73). -/
inductive IntakeMode where
  | roundRobin
  | portAFirst
  deriving DecidableEq, Repr

/-- The eight settings (R73). -/
structure Settings where
  on : Bool
  period : Nat
  multiplier : Nat
  threshold : Nat
  grace : Nat
  retries : Nat
  discovery : Nat
  mode : IntakeMode
  deriving DecidableEq, Repr

/-- A line request, its body parsed (R210). -/
inductive LineReq where
  | nodeRead (h : Byte) (expected : Byte) (item : Byte) (length : Byte)
  | nodeWrite (h : Byte) (expected : Byte) (item : Byte) (data : List Byte)
  | broadcast (g : Seg) (item : Byte) (data : List Byte)
  | discover (g : Seg)
  | move (h : Byte) (target : Byte) (expected : Byte)
  | retire (h : Byte) (force : Bool) (expected : Byte)
  deriving DecidableEq, Repr

/-- A request in a segment queue, with the entry it names and the identity and segment recorded at its admission (R36). -/
structure QueueItem where
  port : PortId
  slot : SlotIx
  req : LineReq
  entry : Option Handle
  identity : Ident
  segment : Seg
  deriving DecidableEq, Repr

/-- The port of the request that an activity carries, and its slot unless its port has been reset since (R176). -/
structure Owner where
  port : PortId
  slot : Option SlotIx
  deriving DecidableEq, Repr

/-- What an ASSIGN is for (R127). -/
inductive JoinKind where
  | newJoin
  | rejoin (h : Handle)
  | transfer
  deriving DecidableEq, Repr

/-- The steps of a MOVE ladder; `stray` is the RELEASE_UNLESS that may follow step 2 (R148 to R150). -/
inductive MoveStep where
  | one
  | two
  | stray
  | three
  deriving DecidableEq, Repr

/-- What an engine is carrying out: one transaction, or one step of a multi-step activity, with what it recorded. -/
inductive Work where
  | nodeRead (h : Handle) (item length : Byte) (identity : Ident) (segment : Seg) (address : Byte)
  | nodeWrite (h : Handle) (item : Byte) (data : List Byte) (identity : Ident) (segment : Seg) (address : Byte)
  | broadcast (item : Byte) (data : List Byte)
  | poll (h : Handle) (identity : Ident) (segment : Seg) (address : Byte)
  | resolveRelease (h : Handle) (address : Byte) (identity : Ident)
  | resolvePresence (h : Handle) (address : Byte) (identity : Ident)
  | move (step : MoveStep) (h : Handle) (address target : Byte) (identity : Ident)
  | retire (h : Handle) (address : Byte) (force : Bool)
  | unparkAll
  | callUnbound
  | assign (kind : JoinKind) (w : Ident) (cls : Byte) (address : Byte)
  | releaseStray (w : Ident) (address : Byte)
  | park (w : Ident)
  deriving DecidableEq, Repr

/-- The line activity in progress (R82), whose request it carries, and the retries made in its present transaction (R84). -/
structure Activity where
  work : Work
  owner : Option Owner
  retries : Nat
  deriving DecidableEq, Repr

/-- The discovery pass record (R118). -/
structure PassRecord where
  active : Bool
  contests : Nat
  joined : Nat
  rejoined : Nat
  parked : Nat
  lost : Nat
  attached : List (PortId × SlotIx)
  deriving DecidableEq, Repr

/-- A segment engine with its intake arbiter's last-served port and its line interface. `timer` is the length in
milliseconds of the running poll period (R101), none while the timer is stopped. `offTaken` says that a switch-off has been
taken during the activity in progress (R92, R93, R137; log 33). -/
structure Engine where
  state : EngineState
  settings : Settings
  queue : List QueueItem
  resolution : List Handle
  cursor : Handle
  pollDue : Bool
  timer : Option Nat
  expiries : Nat
  discoveryDue : Bool
  pass : PassRecord
  parked : Nat
  tookQueue : Bool
  offTaken : Bool
  lastServed : PortId
  activity : Option Activity
  line : Line
  deriving DecidableEq, Repr

/-! ### Restart controller (10_restart_seeding_and_quiet_operation.md) -/

/-- The phases of STARTING (R189). `settling` says whether RESET has been seen released, so that the count of R191 runs;
`clearing` is left in the event that enters it (R192). -/
inductive Phase where
  | settling (counting : Bool)
  | clearing
  | loading
  deriving DecidableEq, Repr

/-- The run states (R189). -/
inductive RunState where
  | starting (phase : Phase)
  | run
  | quieting
  | quiet
  deriving DecidableEq, Repr

/-- What the setup fixes for one segment (R194). -/
structure SegSetup where
  fitted : Bool
  poolLow : Byte
  poolHigh : Byte
  rate : Nat
  mode : IntakeMode
  permitA : Bool
  permitB : Bool
  deriving DecidableEq, Repr

/-- The fixed setup; `loaded` is the setup source (R194). -/
structure Setup where
  segments : Vector SegSetup 4
  loaded : Bool
  deriving DecidableEq, Repr

/-- The prescaler (R208): whether it runs, its divider chain, which counts reference cycles for the six rate taps, and its
second divider, which counts the reference cycles of a group of five millisecond ticks, 0 to 98,303. -/
structure Prescaler where
  running : Bool
  chain : BitVec 10
  group : Nat
  deriving DecidableEq, Repr

/-- The whole part. `pending` is the queue of commands; `freeCount` is the model's own counter of the free values it has
used (log 26). -/
structure State where
  pending : List Instr
  runState : RunState
  setup : Setup
  prescaler : Prescaler
  entries : Vector Entry 128
  maps : Vector AddressMap 4
  seeding : Bool
  portA : PortState
  portB : PortState
  engines : Vector Engine 4
  freeCount : Nat
  deriving DecidableEq, Repr

/-! ### Reset values -/

/-- What the setup defaults give one segment (R194). -/
def defaultSegSetup : SegSetup :=
  { fitted := true, poolLow := 1, poolHigh := 200, rate := 2, mode := .roundRobin, permitA := true, permitB := true }

/-- The setup defaults (R194). -/
def defaultSetup : Setup := { segments := Vector.replicate 4 defaultSegSetup, loaded := false }

/-- The mask's reset value: RESPONSE_READY and RESTARTED (R181), flags 0 and 11 of the R178 table. -/
def resetMask : BitVec 13 := 0x801

/-- A notice unit as CLEARING and PORT_RESET leave it (R188). -/
def resetNotices : NoticeUnit := { sticky := 0, mask := resetMask, changed := Vector.replicate 128 false }

/-- A port as CLEARING leaves it, with no exchange in progress (R177). -/
def resetPort : PortState :=
  { slots := Vector.replicate 8 .free, waiting := [], completed := [], waitsFor := none, previous := .none,
    exchange := none, notices := resetNotices }

/-- The settings' reset values (R73), for the given on/off value and intake mode. -/
def resetSettings (on : Bool) (mode : IntakeMode) : Settings :=
  { on := on, period := 3, multiplier := 1, threshold := 3, grace := 8, retries := 2, discovery := 0, mode := mode }

/-- A pass record with no pass and counts 0 (R118). -/
def noPass : PassRecord :=
  { active := false, contests := 0, joined := 0, rejoined := 0, parked := 0, lost := 0, attached := [] }

/-- A released line with no attempt (R71). -/
def resetLine : Line :=
  { level := .recessive, pin := .recessive, held := 0, recessiveRun := 0, dominantRun := 0, driving := false, attempt := none }

/-- An engine as CLEARING leaves it (R98), with the given settings. -/
def resetEngine (settings : Settings) : Engine :=
  { state := .off, settings := settings, queue := [], resolution := [], cursor := 0, pollDue := false, timer := none,
    expiries := 0, discoveryDue := false, pass := noPass, parked := 0, tookQueue := false, offTaken := false,
    lastServed := .b, activity := none, line := resetLine }

/-- The part right after power is applied (R190): STARTING in SETTLING, RESET not yet seen released; everything else as
log 4 names it. -/
def State.reset : State :=
  { pending := [], runState := .starting (.settling false), setup := defaultSetup,
    prescaler := { running := false, chain := 0, group := 0 },
    entries := Vector.replicate 128 (freeEntry 1 false false), maps := Vector.replicate 4 (Vector.replicate 200 .empty),
    seeding := false, portA := resetPort, portB := resetPort,
    engines := Vector.replicate 4 (resetEngine (resetSettings true .roundRobin)), freeCount := 0 }

end Sys2Proof.Machine
end

