-- ==== Sys2Proof/Machine/Codes.lean ====
section
/-! DEFINITION. The codes and byte layouts of 11_frame_and_setup_formats.md, the CRC of R56, and the characters and bits
of a command frame (R52, R54, R215). -/

namespace Sys2Proof.Machine

/-! ### The CRC (R56) -/

/-- One bit of the CRC register: polynomial x^16 + x^12 + x^5 + 1, most significant bit first. -/
def crcBit (r : BitVec 16) (b : Bool) : BitVec 16 :=
  if r.msb != b then (r <<< 1) ^^^ 0x1021 else r <<< 1

/-- One data byte entering the register, most significant bit first. -/
def crcByte (r : BitVec 16) (d : Byte) : BitVec 16 :=
  [7, 6, 5, 4, 3, 2, 1, 0].foldl (fun acc k => crcBit acc (d.getLsbD k)) r

/-- The CRC of a byte string: the register starts at all ones and is not inverted at the end. -/
def crc (bytes : List Byte) : BitVec 16 := bytes.foldl crcByte 0xFFFF

/-! ### Bytes on a clocked line -/

/-- The bits of a byte in the order clocked, most significant first (R160, R193). -/
def byteBits (d : Byte) : List Bool := [7, 6, 5, 4, 3, 2, 1, 0].map fun k => d.getLsbD k

/-- The byte whose bits, most significant first, are the eight given. -/
def byteOf (b7 b6 b5 b4 b3 b2 b1 b0 : Bool) : Byte :=
  BitVec.ofBoolListBE [b7, b6, b5, b4, b3, b2, b1, b0]

/-- The whole bytes of the bits clocked, most significant bit first (R160, R193); a last byte cut short is none. -/
def bytesOfBits : List Bool → List Byte
  | b7 :: b6 :: b5 :: b4 :: b3 :: b2 :: b1 :: b0 :: rest => byteOf b7 b6 b5 b4 b3 b2 b1 b0 :: bytesOfBits rest
  | _ => []

/-! ### Multi-byte values -/

/-- A 16-bit value as two bytes, high byte first. -/
def bytes16 (v : BitVec 16) : List Byte := [v.extractLsb' 8 8, v.extractLsb' 0 8]

/-- Two bytes, high byte first, as a 16-bit value. -/
def word16 (hi lo : Byte) : BitVec 16 := hi ++ lo

/-- An identity as six bytes, most significant byte first. -/
def identBytes (x : Ident) : List Byte :=
  [x.extractLsb' 40 8, x.extractLsb' 32 8, x.extractLsb' 24 8, x.extractLsb' 16 8, x.extractLsb' 8 8, x.extractLsb' 0 8]

/-- Six bytes, most significant byte first, as an identity. -/
def identOf (b0 b1 b2 b3 b4 b5 : Byte) : Ident := (((((b0 ++ b1 : BitVec 16) ++ b2 : BitVec 24) ++ b3 : BitVec 32) ++ b4 : BitVec 40) ++ b5 : BitVec 48)

/-! ### Host side codes -/

/-- The kind a kind byte names (R210). -/
def kindOf (b : Byte) : Option ReqKind :=
  match b.toNat with
  | 0x01 => some .describe | 0x02 => some .getNotices | 0x03 => some .clearNotices | 0x04 => some .setNoticeMask
  | 0x05 => some .getChanges | 0x06 => some .portReset | 0x07 => some .restart | 0x08 => some .quiet | 0x09 => some .wake
  | 0x10 => some .seed | 0x11 => some .seedEnd
  | 0x20 => some .findId | 0x21 => some .findAddr | 0x22 => some .list | 0x23 => some .readEntry
  | 0x30 => some .setLabel | 0x31 => some .setStride | 0x32 => some .claim | 0x33 => some .unclaim | 0x34 => some .watch
  | 0x35 => some .unwatch
  | 0x40 => some .nodeRead | 0x41 => some .nodeWrite | 0x42 => some .broadcast | 0x43 => some .discover | 0x44 => some .move
  | 0x45 => some .retire
  | 0x50 => some .setSegment | 0x51 => some .getSegment
  | _ => none

/-- The code of a kind (R210). -/
def kindCode : ReqKind → Byte
  | .describe => 0x01 | .getNotices => 0x02 | .clearNotices => 0x03 | .setNoticeMask => 0x04 | .getChanges => 0x05
  | .portReset => 0x06 | .restart => 0x07 | .quiet => 0x08 | .wake => 0x09
  | .seed => 0x10 | .seedEnd => 0x11
  | .findId => 0x20 | .findAddr => 0x21 | .list => 0x22 | .readEntry => 0x23
  | .setLabel => 0x30 | .setStride => 0x31 | .claim => 0x32 | .unclaim => 0x33 | .watch => 0x34 | .unwatch => 0x35
  | .nodeRead => 0x40 | .nodeWrite => 0x41 | .broadcast => 0x42 | .discover => 0x43 | .move => 0x44 | .retire => 0x45
  | .setSegment => 0x50 | .getSegment => 0x51

/-- The code of a status (R212). -/
def statusCode : Status → Byte
  | .ok => 0x00 | .badRequest => 0x01 | .badHandle => 0x02 | .freeEntry => 0x03 | .notFound => 0x04 | .stale => 0x05
  | .claimed => 0x06 | .notPermitted => 0x07 | .wrongState => 0x08 | .busyEntry => 0x09 | .conflict => 0x0A
  | .addressInUse => 0x0B | .outOfPool => 0x0C | .identityClash => 0x0D | .directoryFull => 0x0E | .segmentOff => 0x0F
  | .segmentFault => 0x10 | .noReply => 0x11 | .refused => 0x12 | .collision => 0x13 | .framing => 0x14 | .contention => 0x15

/-- The code of an entry state (R210). -/
def stateCode : EntryState → Byte
  | .free => 0 | .seeded => 1 | .present => 2 | .absent => 3 | .conflict => 4 | .moving _ _ => 5 | .retiring _ _ => 6

/-- The entry state that a prior state restores (R11). -/
def priorState : Prior → EntryState
  | .seeded => .seeded | .present => .present | .absent => .absent | .conflict => .conflict

/-- The code of a claim (R210). -/
def claimCode : Option PortId → Byte
  | none => 0 | some .a => 1 | some .b => 2

/-- The code of a watch set (R210): bit 0 for A, bit 1 for B. -/
def watchCode (a b : Bool) : Byte := boolByte a + 2 * boolByte b

/-- The code of an engine state (R213). -/
def engineCode : EngineState → Byte
  | .off => 0 | .idle => 1 | .transaction => 2 | .contest => 3 | .fault => 4

/-- The code of an intake mode (R210). -/
def modeCode : IntakeMode → Byte
  | .roundRobin => 0 | .portAFirst => 1

/-- The code of the run state a WAKE recorded (R213). -/
def wokeCode : Woke → Byte
  | .run => 1 | .quieting => 2 | .quiet => 3

/-- The previous outcome's code in the state code (R209). -/
def outcomeCode : ExchangeOutcome → Nat
  | .none => 0 | .taken => 1 | .full => 2 | .badFrame => 3 | .notNow => 4

/-- A response frame (R212). -/
def Response.frame (r : Response) : List Byte :=
  let head := [kindCode r.kind, r.tag, statusCode r.status, r.generation, byte r.body.length] ++ r.body
  head ++ bytes16 (crc head)

/-! ### Line frames -/

/-- The code of a line function (R215). -/
def functionCode : Function → Byte
  | .presence => 0x01 | .readItem => 0x02 | .writeItem => 0x03 | .setAddress => 0x04 | .release => 0x05
  | .callUnbound => 0x10 | .assign => 0x11 | .releaseUnless => 0x12 | .park => 0x13 | .unparkAll => 0x14
  | .broadcastWrite => 0x15

/-- Whether a function is addressed, so that its frame has an acknowledge slot (R54, R55). -/
def Function.addressed : Function → Bool
  | .presence | .readItem | .writeItem | .setAddress | .release => true
  | .callUnbound | .assign | .releaseUnless | .park | .unparkAll | .broadcastWrite => false

/-- Whether a function expects a reply frame (R59). -/
def Function.expectsReply : Function → Bool
  | .presence | .readItem | .writeItem | .setAddress | .release | .assign => true
  | .callUnbound | .releaseUnless | .park | .unparkAll | .broadcastWrite => false

/-- Whether a REFUSE reply is allowed (R59). -/
def Function.refuseAllowed : Function → Bool
  | .readItem | .writeItem | .setAddress | .release => true
  | .presence | .assign | .callUnbound | .releaseUnless | .park | .unparkAll | .broadcastWrite => false

/-- The data bytes of a frame's characters before the CRC (R54). -/
def Frame.covered (f : Frame) : List Byte := [f.address, functionCode f.function, f.item, f.length] ++ f.payload

/-- The data bytes of all of a frame's characters (R54, R56). -/
def Frame.bytes (f : Frame) : List Byte := f.covered ++ bytes16 (crc f.covered)

/-- The 11 bits of a character, in the order sent, recessive as true (R52). -/
def characterBits (mark : Bool) (d : Byte) : List Bool :=
  [false] ++ [0, 1, 2, 3, 4, 5, 6, 7].map (fun k => d.getLsbD k) ++ [mark, true]

/-- The bits of a whole frame, the acknowledge slot left out; the first character alone has mark 1 (R52). -/
def Frame.bits (f : Frame) : List Bool :=
  match f.bytes with
  | [] => []
  | b :: rest => characterBits true b ++ rest.flatMap (characterBits false)

/-- The address a reply must carry (R59): the addressed address, or for ASSIGN the address in its payload. -/
def Frame.replyAddress (f : Frame) : Byte :=
  if f.function = .assign then f.payload.getD 6 0 else f.address

/-- The length an ACCEPT reply must carry (R59). -/
def Frame.replyLength (f : Frame) : Byte :=
  match f.function with
  | .presence | .assign => 7
  | .readItem => f.length
  | _ => 0

end Sys2Proof.Machine
end

