-- ==== Sys2Proof/Machine/Ops.lean ====
section
/-! DEFINITION. The named operations over the state: one accessor and one update for each kind of register, then what the
rules say once for all commands: the generation rule with its hand-over to the notice units (R10, R12), notices and
wake signals (R178, R182, R207), the address maps (R15), request slots (R169, R172), the entry changes that several
activities share (R94, R113, R139), and the discovery pass's end (R138). -/

namespace Sys2Proof.Machine

/-! ### Ports -/

/-- The state of port `p`. -/
def State.port (s : State) : PortId → PortState
  | .a => s.portA
  | .b => s.portB

/-- Port `p` replaced. -/
def State.setPort (s : State) (p : PortId) (x : PortState) : State :=
  match p with
  | .a => { s with portA := x }
  | .b => { s with portB := x }

/-- Port `p` changed by `f`. -/
def State.updPort (s : State) (p : PortId) (f : PortState → PortState) : State := s.setPort p (f (s.port p))

/-- A slot of port `p`. -/
def State.slot (s : State) (p : PortId) (i : SlotIx) : Slot := (s.port p).slots[i]

/-- Slot `i` replaced. -/
def PortState.setSlot (x : PortState) (i : SlotIx) (c : Slot) : PortState := { x with slots := x.slots.set i c }

/-! ### Entries -/

/-- Entry `h` (R1). -/
def State.entry (s : State) (h : Handle) : Entry := s.entries[h]

/-- Entry `h` replaced, with no other effect. -/
def State.setEntry (s : State) (h : Handle) (e : Entry) : State := { s with entries := s.entries.set h e }

/-- Whether an entry holds no node. -/
def Entry.isFree (e : Entry) : Bool := e.state = .free

/-- Whether `p` is in the entry's watch set (R10). -/
def Entry.watches (e : Entry) : PortId → Bool
  | .a => e.watchA
  | .b => e.watchB

/-- The watch set with `p` in it or out of it. -/
def Entry.setWatch (e : Entry) (p : PortId) (on : Bool) : Entry :=
  match p with
  | .a => { e with watchA := on }
  | .b => { e with watchB := on }

/-- The entry made FREE (R13): generation and watch set stay. -/
def Entry.freed (e : Entry) : Entry := freeEntry e.generation e.watchA e.watchB

/-- A FREE entry filled, with silence, absent age, stride and claim as R131 and R201 give. -/
def Entry.filled (e : Entry) (st : EntryState) (x : Ident) (c : Byte) (g : Seg) (a : Byte) (l : Option (BitVec 16)) : Entry :=
  { freeEntry e.generation e.watchA e.watchB with state := st, identity := x, cls := c, segment := g, address := a, label := l }

/-- One step up of a generation, from 255 to 1 (R12). -/
def nextGeneration (g : Byte) : Byte := if g = 255 then 1 else g + 1

/-- Whether two contents of an entry differ in a generation-bearing field: state, segment, address, identity, class,
label or poll stride (R12). -/
def bearingDiffers (e f : Entry) : Bool :=
  stateCode e.state != stateCode f.state || e.segment != f.segment || e.address != f.address || e.identity != f.identity ||
    e.cls != f.cls || e.label != f.label || e.stride.map Stride.value != f.stride.map Stride.value

/-! ### Wake signals, notices and change sets -/

/-- A wake signal at the restart controller (R207). -/
def State.wake (s : State) : State :=
  match s.runState with
  | .quieting | .quiet => { s with runState := .run }
  | .run | .starting _ => s

/-- The eleven sticky notice flags (R178). -/
inductive Notice where
  | joined | retired | absent | conflict | directoryFull | poolFull | clash | segFault | segRecovered | restarted
  | setupDefaulted
  deriving DecidableEq, Repr

/-- The position of a sticky flag in the R178 table. -/
def Notice.bit : Notice → Nat
  | .joined => 2 | .retired => 3 | .absent => 4 | .conflict => 5 | .directoryFull => 6 | .poolFull => 7 | .clash => 8
  | .segFault => 9 | .segRecovered => 10 | .restarted => 11 | .setupDefaulted => 12

/-- The flag set that names one sticky flag. -/
def Notice.mask (n : Notice) : BitVec 13 := 1#13 <<< n.bit

/-- The position of CHANGED in the R178 table. -/
def changedBit : Nat := 1

/-- One notice unit takes the setting of a sticky flag (R179), and hands on a wake signal when the flag is enabled (R182). -/
def State.raiseAt (s : State) (p : PortId) (n : Notice) : State :=
  let t := s.updPort p fun x => { x with notices := { x.notices with sticky := x.notices.sticky ||| n.mask } }
  if (s.port p).notices.mask.getLsbD n.bit then t.wake else t

/-- A device event raises a sticky notice in both units (R178). -/
def State.raise (s : State) (n : Notice) : State := (s.raiseAt .a n).raiseAt .b n

/-- Handle `h` is handed to port `p`'s notice unit (R186), which hands on a wake signal when CHANGED is enabled (R182). -/
def State.handTo (s : State) (p : PortId) (h : Handle) : State :=
  let t := s.updPort p fun x => { x with notices := { x.notices with changed := x.notices.changed.set h true } }
  if (s.port p).notices.mask.getLsbD changedBit then t.wake else t

/-- Handle `h` is handed to the notice unit of every port in its watch set (R10). -/
def State.handOver (s : State) (h : Handle) : State :=
  let t := if (s.entry h).watches .a then s.handTo .a h else s
  if (s.entry h).watches .b then t.handTo .b h else t

/-- THE GENERATION RULE (R12). One directory event gives entry `h` the content `e`: when a generation-bearing field
changes, the generation moves up by one and the handle goes to the watching ports' notice units (R10); otherwise the
generation stays. The generation in `e` is not used. -/
def State.change (s : State) (h : Handle) (e : Entry) : State :=
  if bearingDiffers (s.entry h) e then
    (s.setEntry h { e with generation := nextGeneration (s.entry h).generation }).handOver h
  else s.setEntry h { e with generation := (s.entry h).generation }

/-! ### Engines and lines -/

/-- The engine of segment `g`. -/
def State.engine (s : State) (g : Seg) : Engine := s.engines[g]

/-- The engine of segment `g` changed by `f`. -/
def State.updEngine (s : State) (g : Seg) (f : Engine → Engine) : State :=
  { s with engines := s.engines.set g (f (s.engine g)) }

/-- The line interface of segment `g` changed by `f`. -/
def State.updLine (s : State) (g : Seg) (f : Line → Line) : State :=
  s.updEngine g fun e => { e with line := f e.line }

/-- The pass record of segment `g` changed by `f`. -/
def State.updPass (s : State) (g : Seg) (f : PassRecord → PassRecord) : State :=
  s.updEngine g fun e => { e with pass := f e.pass }

/-- What the setup fixes for segment `g`. -/
def State.segSetup (s : State) (g : Seg) : SegSetup := s.setup.segments[g]

/-- Whether port `p` holds the permit for segment `g` (R33). -/
def State.permits (s : State) (p : PortId) (g : Seg) : Bool :=
  match p with
  | .a => (s.segSetup g).permitA
  | .b => (s.segSetup g).permitB

/-- The retire threshold T in force on segment `g` (R73). -/
def State.threshold (s : State) (g : Seg) : Nat := (s.engine g).settings.threshold

/-- A handle joins the tail of a resolution list unless it is already there (R140). -/
def State.appendResolution (s : State) (g : Seg) (h : Handle) : State :=
  s.updEngine g fun e => if h ∈ e.resolution then e else { e with resolution := e.resolution ++ [h] }

/-- A handle leaves a resolution list and closes its gap (R140). -/
def State.dropResolution (s : State) (g : Seg) (h : Handle) : State :=
  s.updEngine g fun e => { e with resolution := e.resolution.filter (· != h) }

/-- The line measured recessive for `run` bit times (log 5); the raw level is then taken to agree with it (log 36). -/
def Line.sawRecessive (l : Line) (run : Nat) : Line :=
  { l with level := .recessive, pin := .recessive, held := 0, recessiveRun := run, dominantRun := 0 }

/-- The line measured dominant for `run` bit times (log 5); the raw level is then taken to agree with it (log 36). -/
def Line.sawDominant (l : Line) (run : Nat) : Line :=
  { l with level := .dominant, pin := .dominant, held := 0, dominantRun := run, recessiveRun := 0 }

/-- A line as its engine becomes OFF (R49, R72): a break of the part's own runs on or ends there, a free value (log 29). -/
def Line.switchedOff (l : Line) (g : Seg) : Line := { l with driving := l.driving && Config.breakOutlastsOff g }

/-- Whether an attempt has sent anything or is past sending: any phase from ADDRESS onwards (R71). -/
def Attempt.begun (a : Attempt) : Bool := a.phase != .idleWait

/-- A new attempt of a frame, which begins with IDLE_WAIT (R70). -/
def newAttempt (f : Frame) : Attempt := { frame := f, phase := .idleWait, received := [], openRun := false, slotsRead := 0 }

/-! ### Address maps -/

/-- The place of a line address in its map, for an address 1 to 200. -/
def mapIx (a : Byte) : Option (Fin 200) :=
  if h : a.toNat - 1 < 200 ∧ 0 < a.toNat then some ⟨a.toNat - 1, h.1⟩ else none

/-- The map slot of address `a` on segment `g`; there is none outside 1 to 200, read as EMPTY (R15, R23). -/
def State.mapSlot (s : State) (g : Seg) (a : Byte) : MapSlot :=
  match mapIx a with
  | some k => (s.maps[g])[k]
  | none => .empty

/-- The map slot of address `a` on segment `g` replaced. -/
def State.setMap (s : State) (g : Seg) (a : Byte) (m : MapSlot) : State :=
  match mapIx a with
  | some k => { s with maps := s.maps.set g ((s.maps[g]).set k m) }
  | none => s

/-- Whether an address lies in the segment's pool (R16); an unfitted segment has no pool (R200). -/
def State.inPool (s : State) (g : Seg) (a : Byte) : Bool :=
  (s.segSetup g).fitted && (s.segSetup g).poolLow.toNat ≤ a.toNat && a.toNat ≤ (s.segSetup g).poolHigh.toNat

/-- The addresses 1 to 200 in ascending order. -/
def allAddresses : List Byte := (List.range 200).map (fun k => byte (k + 1))

/-- The lowest EMPTY map slot in the segment's pool (R17, R128). -/
def State.lowestEmpty (s : State) (g : Seg) : Option Byte :=
  allAddresses.find? fun a => s.inPool g a && s.mapSlot g a == .empty

/-- The FREE entry with the lowest handle (R13). -/
def State.lowestFree (s : State) : Option Handle := allHandles.find? fun h => (s.entry h).isFree

/-- The non-FREE entry that holds an identity (R2). -/
def State.holder (s : State) (w : Ident) : Option Handle :=
  allHandles.find? fun h => !(s.entry h).isFree && (s.entry h).identity == w

/-! ### Answers and request slots -/

/-- What a request is answered: status, generation and body (R173). -/
structure Answer where
  status : Status
  generation : Byte
  body : List Byte
  deriving DecidableEq, Repr

/-- An answer with a body of length 0. -/
def Answer.bare (st : Status) (gen : Byte) : Answer := { status := st, generation := gen, body := [] }

/-- The BAD_REQUEST answer (R37, R173). -/
def badRequest : Answer := Answer.bare .badRequest 0

/-- The request that a slot holds, in any state but FREE and COMPLETED. -/
def Slot.request? : Slot → Option Request
  | .waiting r | .dispatched r | .onLine r => some r
  | .free | .completed _ _ => none

/-- The response an answer makes for a request: kind and tag are echoed (R173). -/
def Request.respond (r : Request) (ans : Answer) : Response :=
  { kind := r.kind, tag := r.tag, status := ans.status, generation := ans.generation, body := ans.body }

/-- The request in slot `i` of port `p` becomes COMPLETED and keeps its slot with its response (R168), at the tail of the
completion order (R172); it leaves the WAITING list if it headed it. -/
def PortState.finish (x : PortState) (i : SlotIx) (ans : Answer) : PortState :=
  match x.slots[i].request? with
  | some r =>
    { x with
      slots := x.slots.set i (.completed r (r.respond ans))
      waiting := x.waiting.filter (· != i)
      completed := x.completed ++ [i]
      waitsFor := if x.waiting.head? = some i then none else x.waitsFor }
  | none => x

/-- The request in slot `i` of port `p` is answered. -/
def State.finish (s : State) (p : PortId) (i : SlotIx) (ans : Answer) : State := s.updPort p (·.finish i ans)

/-- The request an activity carries is answered; an orphaned one's response is discarded (R176), and an activity without
a request answers none. -/
def State.finishOwner (s : State) (o : Option Owner) (ans : Answer) : State :=
  match o with
  | some { port := p, slot := some i } => s.finish p i ans
  | some { port := _, slot := none } | none => s

/-- The request heading port `p`'s WAITING list, with its slot (R170). -/
def State.head? (s : State) (p : PortId) : Option (SlotIx × Request) :=
  match (s.port p).waiting with
  | [] => none
  | i :: _ =>
    match s.slot p i with
    | .waiting r => some (i, r)
    | .free | .dispatched _ | .onLine _ | .completed _ _ => none

/-- Whether the part is in the run state STARTING. -/
def RunState.isStarting : RunState → Bool
  | .starting _ => true
  | .run | .quieting | .quiet => false

/-- The dispatch of the request heading port `p`'s list, when it is of kind `k` and has not been dispatched before; in any
other case, and in STARTING, the event does not come about and nothing changes (log 2). -/
def State.dispatch (s : State) (p : PortId) (k : ReqKind) (f : SlotIx → Request → State) : State :=
  match s.head? p with
  | some (i, r) => if s.runState.isStarting = false ∧ (s.port p).waitsFor = none ∧ r.kind = k then f i r else s
  | none => s

/-- The dispatch of a directory-only request: it is served at once and becomes COMPLETED (R170). -/
def State.serve (s : State) (p : PortId) (k : ReqKind) (f : State → PortId → List Byte → State × Answer) : State :=
  s.dispatch p k fun i r => (f s p r.body).1.finish p i (f s p r.body).2

/-! ### Entry changes that several activities share -/

/-- A higher silence, not beyond 7 (R7). -/
def moreSilence (n : Nat) : Nat := min (n + 1) 7

/-- A higher absent age, saturating at 15 (R8). -/
def moreAge (n : Nat) : Nat := min (n + 1) 15

/-- Entry `h` becomes ABSENT with absent age 0 and the given silence, and the ABSENT notice is raised (R86, R110, R113). -/
def State.makeAbsent (s : State) (h : Handle) (silence : Nat) : State :=
  (s.change h { s.entry h with state := .absent, age := 0, silence := silence }).raise .absent

/-- Entry `h` goes to the state `p` with the given silence; a SEEDED or PRESENT entry whose silence has reached the T in
force becomes ABSENT instead (R94, R113, R156). Only an ABSENT entry keeps its absent age (R8). -/
def State.restore (s : State) (h : Handle) (p : Prior) (silence : Nat) : State :=
  let e := s.entry h
  match p with
  | .seeded | .present =>
    if s.threshold e.segment ≤ silence then s.makeAbsent h silence
    else s.change h { e with state := priorState p, silence := silence, age := 0 }
  | .absent => s.change h { e with state := .absent, silence := silence }
  | .conflict => s.change h { e with state := .conflict, silence := silence, age := 0 }

/-- A MOVE or RETIRE that ends without running returns its entry (R94). -/
def State.returnEntry (s : State) (h : Handle) : State :=
  match (s.entry h).state with
  | .moving prior t => (s.setMap (s.entry h).segment t .empty).restore h prior (s.entry h).silence
  | .retiring prior _ => s.restore h prior (s.entry h).silence
  | .free | .seeded | .present | .absent | .conflict => s

/-- Entry `h` of segment `g` becomes CONFLICT (R139). -/
def State.makeConflict (s : State) (g : Seg) (h : Handle) : State :=
  ((s.change h { s.entry h with state := .conflict, age := 0 }).appendResolution g h).raise .conflict

/-- Entry `h` becomes FREE, its map slot EMPTY, and the RETIRED notice is raised (R116, R157). -/
def State.freeRetired (s : State) (h : Handle) : State :=
  ((s.setMap (s.entry h).segment (s.entry h).address .empty).change h (s.entry h).freed).raise .retired

/-- The silence of entry `h` set, with nothing else changed. -/
def State.setSilence (s : State) (h : Handle) (n : Nat) : State := s.setEntry h { s.entry h with silence := n }

/-- An unanswered outcome on a SEEDED or PRESENT entry: silence grows, and at T the entry becomes ABSENT (R86, R110). -/
def State.countSilence (s : State) (h : Handle) : State :=
  let n := moreSilence (s.entry h).silence
  if s.threshold (s.entry h).segment ≤ n then s.makeAbsent h n else s.setSilence h n

/-- Entry `h` confirmed by a reply: PRESENT, silence 0, absent age 0 (R110, R111, R143). -/
def State.confirm (s : State) (h : Handle) : State :=
  s.change h { s.entry h with state := .present, silence := 0, age := 0 }

/-! ### Discovery passes -/

/-- The end reasons of a pass (R137, R213). -/
inductive EndReason where
  | none | noneLeft | limit | quiet | off | fault
  deriving DecidableEq, Repr

/-- The code of an end reason (R213). -/
def EndReason.code : EndReason → Byte
  | .none => 0 | .noneLeft => 1 | .limit => 2 | .quiet => 3 | .off => 4 | .fault => 5

/-- The status with which an end reason answers a DISCOVER (R138). -/
def EndReason.status : EndReason → Status
  | .off => .segmentOff | .fault => .segmentFault | .none | .noneLeft | .limit | .quiet => .ok

/-- The body of a DISCOVER response (R213). -/
def discoverBody (r : EndReason) (c : PassRecord) : List Byte :=
  [r.code, byte c.contests, byte c.joined, byte c.rejoined, byte c.parked, byte c.lost]

/-- The DISCOVER body with every count 0. -/
def discoverNothing (r : EndReason) : List Byte := discoverBody r noPass

/-- Each DISCOVER of a list is answered, in order. -/
def State.answerAll (s : State) (ans : Answer) : List (PortId × SlotIx) → State
  | [] => s
  | (p, i) :: rest => (s.finish p i ans).answerAll ans rest

/-- The pass of segment `g`, if one is active, ends for the given reason: its attached requests are answered in the order
of attachment with the counts of the pass, and the record becomes inactive with an empty list (R118, R137, R138). -/
def State.endPass (s : State) (g : Seg) (r : EndReason) : State :=
  let c := (s.engine g).pass
  if c.active then
    (s.updPass g fun x => { x with active := false, attached := [] }).answerAll
      { status := r.status, generation := 0, body := discoverBody r c } c.attached
  else s

end Sys2Proof.Machine
end

