-- ==== Sys2Proof/Machine/Flags.lean ====
section
/-! DEFINITION. The levels that blocks derive from other state: the notice flags and attention output of a port (R178 to
R181), and the status byte of an exchange (R161, R209). -/

namespace Sys2Proof.Machine

/-- Whether a slot is COMPLETED. -/
def Slot.isCompleted : Slot → Bool
  | .completed _ _ => true
  | .free | .waiting _ | .dispatched _ | .onLine _ => false

/-- Whether a slot is WAITING, DISPATCHED or ON_LINE (R204). -/
def Slot.isBusy : Slot → Bool
  | .waiting _ | .dispatched _ | .onLine _ => true
  | .free | .completed _ _ => false

/-- RESPONSE_READY of a port (R180): at least one slot is COMPLETED. -/
def PortState.responseReady (x : PortState) : Bool := x.slots.any Slot.isCompleted

/-- At least one slot is FREE (R161). -/
def PortState.freeSlot (x : PortState) : Bool := x.slots.any (· == .free)

/-- CHANGED of a port (R180): the change set holds a handle. -/
def NoticeUnit.anyChanged (u : NoticeUnit) : Bool := u.changed.any id

/-- The number of handles in a change set (R183). -/
def NoticeUnit.changeCount (u : NoticeUnit) : Nat := (u.changed.toList.filter id).length

/-- The two level flags as a flag set. -/
def levelFlags (ready changed : Bool) : BitVec 13 := (if ready then 1 else 0) ||| (if changed then 2 else 0)

/-- The flag sets' sticky positions (R178). -/
def stickyPositions : BitVec 13 := 0x1FFC

/-- The thirteen notice flags of a port (R178). -/
def PortState.flags (x : PortState) : BitVec 13 :=
  (x.notices.sticky &&& stickyPositions) ||| levelFlags x.responseReady x.notices.anyChanged

/-- The attention output of port `p` (R181): some flag is set and enabled; released through STARTING (R189). -/
def State.attention (s : State) (p : PortId) : Bool :=
  !s.runState.isStarting && (s.port p).flags &&& (s.port p).notices.mask != 0

/-- The condition of the status byte (R209). -/
def State.condition (s : State) : Nat :=
  match s.runState with
  | .starting _ => 0
  | .run => if s.seeding then 2 else 1
  | .quieting => 3
  | .quiet => 4

/-- Whether the part is in SETTLING, where a port reports fixed values (R189). -/
def RunState.isSettling : RunState → Bool
  | .starting (.settling _) => true
  | .starting .clearing | .starting .loading | .run | .quieting | .quiet => false

/-- A status byte from its fields (R209): the state code in bits 7 to 3, attention, response-waiting, free-slot-available. -/
def statusByteOf (condition outcome : Nat) (attention ready free : Bool) : Byte :=
  byte ((5 * condition + outcome) * 8) + 4 * boolByte attention + 2 * boolByte ready + boolByte free

/-- The status byte that port `p` composes now (R161, R189, R209). -/
def State.statusByte (s : State) (p : PortId) : Byte :=
  let outcome := outcomeCode (s.port p).previous
  if s.runState.isSettling then statusByteOf 0 outcome false false true
  else statusByteOf s.condition outcome (s.attention p) (s.port p).responseReady (s.port p).freeSlot

end Sys2Proof.Machine
end

