-- ==== Sys2Proof/Machine/Operands.lean ====
section
/-! DEFINITION. Request bodies: each kind's layout, coded bytes and ranges (R30, R210, R211), and the common checks of a
request that names an entry (R29, R31 to R35). A body that does not suit its kind reads as none. -/

namespace Sys2Proof.Machine

/-! ### Fields -/

/-- A segment byte, 0 to 3. -/
def segOf (b : Byte) : Option Seg := if h : b.toNat < 4 then some ⟨b.toNat, h⟩ else none

/-- A handle byte, 0 to 127 (R31). -/
def handleOf (b : Byte) : Option Handle := if h : b.toNat < 128 then some ⟨b.toNat, h⟩ else none

/-- A handle as the byte a response carries. -/
def handleByte (h : Handle) : Byte := byte h.val

/-- A byte that is 0 or 1. -/
def flagOf (b : Byte) : Option Bool := if b = 0 then some false else if b = 1 then some true else none

/-- A line address byte, 1 to 200. -/
def isAddress (b : Byte) : Bool := 1 ≤ b.toNat && b.toNat ≤ 200

/-- An identity that a node can have: not 0 and not all ones (R2). -/
def isIdentity (x : Ident) : Bool := x != 0 && x != BitVec.allOnes 48

/-- A notice flag set: two bytes with bits 13 to 15 clear (R210, R211). -/
def noticeSetOf (hi lo : Byte) : Option (BitVec 13) :=
  if (word16 hi lo).toNat < 8192 then some ((word16 hi lo).extractLsb' 0 13) else none

/-- A flag set as the two bytes a response carries. -/
def noticeBytes (m : BitVec 13) : List Byte := bytes16 (m.setWidth 16)

/-! ### Bodies -/

/-- A body of length 0 (R210). -/
def bodyNone : List Byte → Option Unit
  | [] => some ()
  | _ :: _ => none

/-- CLEAR_NOTICES and SET_NOTICE_MASK. -/
def bodyNoticeSet : List Byte → Option (BitVec 13)
  | [hi, lo] => noticeSetOf hi lo
  | _ => none

/-- A body of one byte: a handle or a segment. -/
def bodyByte : List Byte → Option Byte
  | [b] => some b
  | _ => none

/-- The two RESTART kinds (R196). -/
inductive RestartKind where
  | full
  | retain
  deriving DecidableEq, Repr

/-- RESTART. -/
def bodyRestart : List Byte → Option RestartKind
  | [b] => if b = 1 then some .full else if b = 2 then some .retain else none
  | _ => none

/-- A SEED's fields (R200). -/
structure SeedBody where
  identity : Ident
  segment : Seg
  address : Byte
  cls : Byte
  label : Option (BitVec 16)
  deriving DecidableEq, Repr

/-- SEED. -/
def bodySeed : List Byte → Option SeedBody
  | [i0, i1, i2, i3, i4, i5, g, a, c, ind, l1, l0] =>
    match segOf g, flagOf ind with
    | some g, some labelled =>
      let x := identOf i0 i1 i2 i3 i4 i5
      if isIdentity x && isAddress a then
        some { identity := x, segment := g, address := a, cls := c, label := if labelled then some (word16 l1 l0) else none }
      else none
    | _, _ => none
  | _ => none

/-- FIND_ID. -/
def bodyFindId : List Byte → Option Ident
  | [i0, i1, i2, i3, i4, i5] => if isIdentity (identOf i0 i1 i2 i3 i4 i5) then some (identOf i0 i1 i2 i3 i4 i5) else none
  | _ => none

/-- FIND_ADDR. -/
def bodyFindAddr : List Byte → Option (Seg × Byte)
  | [g, a] =>
    match segOf g with
    | some g => if isAddress a then some (g, a) else none
    | none => none
  | _ => none

/-- A LIST's fields: start handle 0 to 128, segment filter, state set, class filter (R24). -/
structure ListBody where
  start : Nat
  segment : Option Seg
  states : Byte
  cls : Option Byte
  deriving DecidableEq, Repr

/-- LIST. -/
def bodyList : List Byte → Option ListBody
  | [st, g, set, opt, c] =>
    match flagOf opt with
    | some anyClass =>
      if st.toNat ≤ 128 && (g.toNat < 4 || g = 0xFF) && set != 0 && !set.msb then
        some { start := st.toNat, segment := segOf g, states := set, cls := if anyClass then none else some c }
      else none
    | none => none
  | _ => none

/-- A SET_LABEL's fields: handle, expected generation, and the label to set or none to clear (R38). -/
structure LabelBody where
  handle : Byte
  expected : Byte
  label : Option (BitVec 16)
  deriving DecidableEq, Repr

/-- SET_LABEL. -/
def bodySetLabel : List Byte → Option LabelBody
  | [h, g, opt, l1, l0] =>
    match flagOf opt with
    | some clears => some { handle := h, expected := g, label := if clears then none else some (word16 l1 l0) }
    | none => none
  | _ => none

/-- A SET_STRIDE's fields: handle, expected generation, stride 1 to 15 (R41). -/
structure StrideBody where
  handle : Byte
  expected : Byte
  stride : Nat
  deriving DecidableEq, Repr

/-- SET_STRIDE. -/
def bodySetStride : List Byte → Option StrideBody
  | [h, g, n] => if 1 ≤ n.toNat ∧ n.toNat ≤ 15 then some { handle := h, expected := g, stride := n.toNat } else none
  | _ => none

/-- SET_SEGMENT (R73, R74, R210): the segment and the eight settings. -/
def bodySetSegment : List Byte → Option (Seg × Settings)
  | [g, on, per, mul, t, gr, rl, n, md] =>
    match segOf g, flagOf on, flagOf md with
    | some g, some on, some portAFirst =>
      if per.toNat ≤ 7 && mul.toNat ≤ 3 && 1 ≤ t.toNat && t.toNat ≤ 7 && gr.toNat ≤ 15 && rl.toNat ≤ 3 && n.toNat ≤ 15 then
        some (g, { on := on, period := per.toNat, multiplier := mul.toNat, threshold := t.toNat, grace := gr.toNat,
                   retries := rl.toNat, discovery := n.toNat, mode := if portAFirst then .portAFirst else .roundRobin })
      else none
    | _, _, _ => none
  | _ => none

/-- GET_SEGMENT and DISCOVER. -/
def bodySegment : List Byte → Option Seg
  | [g] => segOf g
  | _ => none

/-- A data length of NODE_WRITE or BROADCAST, 1 to 32 (R30). -/
def dataOk (d : List Byte) : Bool := 1 ≤ d.length && d.length ≤ 32

/-- The body of a line request, by its kind (R30, R145, R153, R210). -/
def bodyLine (k : ReqKind) (body : List Byte) : Option LineReq :=
  match k, body with
  | .nodeRead, [h, g, item, len] => if 1 ≤ len.toNat ∧ len.toNat ≤ 32 then some (.nodeRead h g item len) else none
  | .nodeWrite, h :: g :: item :: data => if dataOk data then some (.nodeWrite h g item data) else none
  | .broadcast, g :: item :: data => if dataOk data then (segOf g).map fun g => .broadcast g item data else none
  | .discover, [g] => (segOf g).map .discover
  | .move, [h, t, g] => if isAddress t then some (.move h t g) else none
  | .retire, [h, f, g] => (flagOf f).map fun force => .retire h force g
  | _, _ => none

/-! ### The common checks -/

/-- An answer that names entry `h`'s generation, with a body of length 0. -/
def State.refuse (s : State) (h : Handle) (st : Status) : Answer := Answer.bare st (s.entry h).generation

/-- Checks 1 and 2: the handle, and that its entry is not FREE (R31, R32). -/
def State.checkNode (s : State) (b : Byte) : Except Answer Handle :=
  match handleOf b with
  | none => .error (Answer.bare .badHandle 0)
  | some h => if (s.entry h).isFree then .error (s.refuse h .freeEntry) else .ok h

/-- Check 3: the requesting port's permit for the entry's segment (R33). -/
def State.checkPermit (s : State) (p : PortId) (h : Handle) : Except Answer Unit :=
  if s.permits p (s.entry h).segment then .ok () else .error (s.refuse h .notPermitted)

/-- Check 4: the claim is none or the requesting port's; the CLAIMED answer names the holder (R34, R213). -/
def State.checkClaim (s : State) (p : PortId) (h : Handle) : Except Answer Unit :=
  if (s.entry h).claim = some p.other then
    .error { status := .claimed, generation := (s.entry h).generation, body := [claimCode (s.entry h).claim] }
  else .ok ()

/-- Check 5: the expected generation, 0 for unconditional (R35). An equal generation passes, also one that the entry has come back
to by a wrap from 255 to 1, where R35's own words disagree (DESIGN CHOICE, log 37). -/
def State.checkGeneration (s : State) (h : Handle) (expected : Byte) : Except Answer Unit :=
  if expected = 0 ∨ expected = (s.entry h).generation then .ok () else .error (s.refuse h .stale)

/-- The common checks 1 to 3 (R29). -/
def State.commonToPermit (s : State) (p : PortId) (b : Byte) : Except Answer Handle := do
  let h ← s.checkNode b
  s.checkPermit p h
  return h

/-- The common checks 1, 2, 3 and 5, which NODE_READ passes (R29). -/
def State.commonUnclaimed (s : State) (p : PortId) (b expected : Byte) : Except Answer Handle := do
  let h ← s.commonToPermit p b
  s.checkGeneration h expected
  return h

/-- The common checks 1 to 5 (R29). -/
def State.commonAll (s : State) (p : PortId) (b expected : Byte) : Except Answer Handle := do
  let h ← s.commonToPermit p b
  s.checkClaim p h
  s.checkGeneration h expected
  return h

end Sys2Proof.Machine
end

