-- ==== Sys2Proof/Machine/LineRequests.lean ====
section
/-! DEFINITION. Line requests up to their segment queue: the checks at dispatch and at admission (R29, R36, R90, R121, R145,
R153), the intake arbiter (R78), admission with the entry changes of MOVE and RETIRE (R146, R154), and the answers of
requests that leave a queue, or stop waiting for one, without running (R91, R95). -/

namespace Sys2Proof.Machine

/-! ### The checks -/

/-- The handle byte a line request names, if it names an entry. -/
def LineReq.handle? : LineReq → Option Byte
  | .nodeRead h _ _ _ | .nodeWrite h _ _ _ | .move h _ _ | .retire h _ _ => some h
  | .broadcast _ _ _ | .discover _ => none

/-- The body of a refusal: a DISCOVER carries the end reason and counts of 0, every other kind nothing (R121, R213). -/
def LineReq.refusalBody (q : LineReq) (r : EndReason) : List Byte :=
  match q with
  | .discover _ => discoverNothing r
  | .nodeRead _ _ _ _ | .nodeWrite _ _ _ _ | .broadcast _ _ _ | .move _ _ _ | .retire _ _ _ => []

/-- The segment condition (R90): SEGMENT_OFF for a segment not fitted or not on, then SEGMENT_FAULT. -/
def State.segmentCondition (s : State) (g : Seg) : Option Status :=
  if (s.segSetup g).fitted = false ∨ (s.engine g).settings.on = false then some .segmentOff
  else if (s.engine g).state = .fault then some .segmentFault
  else none

/-- The state answer for NODE_READ and NODE_WRITE (R14). -/
def transferState : EntryState → Option Status
  | .seeded | .present => none
  | .free => some .freeEntry
  | .absent => some .wrongState
  | .conflict => some .conflict
  | .moving _ _ | .retiring _ _ => some .busyEntry

/-- The state answer for MOVE (R14). -/
def moveState : EntryState → Option Status
  | .present => none
  | .free => some .freeEntry
  | .seeded | .absent | .conflict => some .wrongState
  | .moving _ _ | .retiring _ _ => some .busyEntry

/-- The state answer for RETIRE (R14). -/
def retireState : EntryState → Option Status
  | .seeded | .present | .absent | .conflict => none
  | .free => some .freeEntry
  | .moving _ _ | .retiring _ _ => some .busyEntry

/-- The checks of MOVE after the segment condition: the pool, then the map slot (R145). -/
def State.moveTarget (s : State) (g : Seg) (t : Byte) : Option Status :=
  if s.inPool g t = false then some .outOfPool
  else if s.mapSlot g t = .empty then none
  else some .addressInUse

/-- A state answer, the segment condition and the checks of the kind's own, in that order (R36), each answered with the
entry's generation. -/
def State.laterChecks (s : State) (h : Handle) (st cond own : Option Status) : Except Answer Unit :=
  match (st.or cond).or own with
  | some c => .error (s.refuse h c)
  | none => .ok ()

/-- The checks of a line request, in order; the segment whose queue it is for when every check passes (R36). -/
def State.checkLine (s : State) (p : PortId) (q : LineReq) : Except Answer Seg :=
  match q with
  | .nodeRead b exp _ _ => do
    let h ← s.commonUnclaimed p b exp
    let g := (s.entry h).segment
    s.laterChecks h (transferState (s.entry h).state) (s.segmentCondition g) none
    return g
  | .nodeWrite b exp _ _ => do
    let h ← s.commonAll p b exp
    let g := (s.entry h).segment
    s.laterChecks h (transferState (s.entry h).state) (s.segmentCondition g) none
    return g
  | .move b t exp => do
    let h ← s.commonAll p b exp
    let g := (s.entry h).segment
    s.laterChecks h (moveState (s.entry h).state) (s.segmentCondition g) (s.moveTarget g t)
    return g
  | .retire b _ exp => do
    let h ← s.commonAll p b exp
    let g := (s.entry h).segment
    s.laterChecks h (retireState (s.entry h).state) (s.segmentCondition g) none
    return g
  | .broadcast g _ _ =>
    if s.permits p g = false then .error (Answer.bare .notPermitted 0)
    else
      match s.segmentCondition g with
      | some c => .error (Answer.bare c 0)
      | none => .ok g
  | .discover g =>
    let no (c : Status) : Answer := { status := c, generation := 0, body := discoverNothing .none }
    if s.permits p g = false then .error (no .notPermitted)
    else if s.seeding then .error (no .wrongState)
    else
      match s.segmentCondition g with
      | some c => .error (no c)
      | none => .ok g

/-- The request as its checks are taken anew at its admission: NODE_READ passes the generation check at dispatch only (R87),
so that its expected generation counts as unconditional then; every other request is checked as it stands (R78; log 30). -/
def LineReq.atAdmission (q : LineReq) : LineReq :=
  match q with
  | .nodeRead h _ item length => .nodeRead h 0 item length
  | .nodeWrite _ _ _ _ | .broadcast _ _ _ | .discover _ | .move _ _ _ | .retire _ _ _ => q

/-! ### Waiting and admission -/

/-- The line request heading port `p`'s list that has been dispatched and waits for the queue of segment `g`: the segment
of its entry as it stands, or the segment found at its dispatch when the entry has become FREE (R78; log 12). -/
def State.waitingFor (s : State) (g : Seg) (p : PortId) : Option (SlotIx × LineReq) :=
  match s.head? p, (s.port p).waitsFor with
  | some (i, r), some g0 =>
    match bodyLine r.kind r.body with
    | some q =>
      let now : Seg :=
        match q.handle?.bind handleOf with
        | some h => if (s.entry h).isFree then g0 else (s.entry h).segment
        | none => g0
      if now = g then some (i, q) else none
    | none => none
  | _, _ => none

/-- The entry state that a MOVE or RETIRE records as its prior state (R146, R154). -/
def priorOf : EntryState → Option Prior
  | .seeded => some .seeded
  | .present => some .present
  | .absent => some .absent
  | .conflict => some .conflict
  | .free | .moving _ _ | .retiring _ _ => none

/-- The entry changes of an admission: a MOVE reserves its target and makes the entry MOVING (R146), a RETIRE makes it
RETIRING and takes a CONFLICT entry off the resolution list (R154); no other kind changes an entry. -/
def State.admissionChange (s : State) (g : Seg) (q : LineReq) : State :=
  match q with
  | .move b t _ =>
    match handleOf b with
    | some h => (s.setMap g t (.reserved h)).change h { s.entry h with state := .moving .present t }
    | none => s
  | .retire b force _ =>
    match handleOf b with
    | some h =>
      match priorOf (s.entry h).state with
      | some pr => (s.dropResolution g h).change h { s.entry h with state := .retiring pr force }
      | none => s
    | none => s
  | .nodeRead _ _ _ _ | .nodeWrite _ _ _ _ | .broadcast _ _ _ | .discover _ => s

/-- The queue place of an admitted request, with the identity and segment of its entry as they stand (R36, R77). -/
def State.queueItem (s : State) (p : PortId) (i : SlotIx) (g : Seg) (q : LineReq) : QueueItem :=
  match q.handle?.bind handleOf with
  | some h =>
    { port := p, slot := i, req := q, entry := some h, identity := (s.entry h).identity, segment := (s.entry h).segment }
  | none => { port := p, slot := i, req := q, entry := none, identity := 0, segment := g }

/-- The head in slot `i` leaves the WAITING list as DISPATCHED (R169). -/
def PortState.dispatchHead (x : PortState) (i : SlotIx) : PortState :=
  { x with
    slots := x.slots.set i (match x.slots[i].request? with | some r => .dispatched r | none => x.slots[i])
    waiting := x.waiting.filter (· != i)
    waitsFor := none }

/-- Admission (R78): the request joins the tail of the queue, its slot becomes DISPATCHED, and its port is last served. -/
def State.enterQueue (s : State) (p : PortId) (i : SlotIx) (g : Seg) (q : LineReq) : State :=
  ((s.updEngine g fun e => { e with queue := e.queue ++ [s.queueItem p i g q], lastServed := p }).updPort p
    (·.dispatchHead i)).admissionChange g q

/-- One waiting request meets a free place: its checks are taken anew; it is admitted, or completes with the failure
(R78). -/
def State.tryEnter (s : State) (p : PortId) (i : SlotIx) (g : Seg) (q : LineReq) : State × Bool :=
  match s.checkLine p q.atAdmission with
  | .error a => (s.finish p i a, false)
  | .ok _ => (s.enterQueue p i g q, true)

/-- The port that the intake mode serves first when both wait (R78). -/
def Engine.firstServed (e : Engine) : PortId :=
  match e.settings.mode with
  | .portAFirst => .a
  | .roundRobin => e.lastServed.other

/-- The intake arbiter acts on a free place of segment `g`: it serves the waiting port that the mode names, and the other
one in the same event when that request's checks fail (R78). -/
def State.arbitrate (s : State) (g : Seg) : State :=
  let first := (s.engine g).firstServed
  match s.waitingFor g first, s.waitingFor g first.other with
  | some (i, q), none => (s.tryEnter first i g q).1
  | none, some (i, q) => (s.tryEnter first.other i g q).1
  | some (i, q), some (j, r) =>
    let (t, done) := s.tryEnter first i g q
    if done then t else (t.tryEnter first.other j g r).1
  | none, none => s

/-- Whether a queue has a free place (R77). -/
def State.queueHasPlace (s : State) (g : Seg) : Bool := (s.engine g).queue.length < Config.queuePlaces

/-- The arbiter acts on the request of port `p` that has just passed its dispatch checks for a queue with a free place (R78).
Where the mode has served the other port's waiting request first and the queue can still take this one, it enters in the
same event (R171; log 13). -/
def State.admitDispatched (s : State) (p : PortId) (g : Seg) : State :=
  let t := s.arbitrate g
  if (t.waitingFor g p).isSome ∧ t.queueHasPlace g = true then t.arbitrate g else t

/-- The dispatch of a line request (R36, R171): a body that does not suit its kind or a check that fails completes it;
otherwise it waits for its segment's queue, and the arbiter acts at once when a place is free. -/
def State.dispatchLine (s : State) (p : PortId) (k : ReqKind) : State :=
  s.dispatch p k fun i r =>
    match bodyLine r.kind r.body with
    | none => s.finish p i badRequest
    | some q =>
      match s.checkLine p q with
      | .error a => s.finish p i a
      | .ok g =>
        let t := s.updPort p fun x => { x with waitsFor := some g }
        if s.queueHasPlace g then t.admitDispatched p g else t

/-! ### Leaving without running -/

/-- The generation that a request's response carries: its entry's as it stands, 0 when it names none (R37). -/
def State.itemGeneration (s : State) (h : Option Handle) : Byte :=
  match h with
  | some h => (s.entry h).generation
  | none => 0

/-- Whether a request is a MOVE or a RETIRE. -/
def LineReq.changesEntry : LineReq → Bool
  | .move _ _ _ | .retire _ _ _ => true
  | .nodeRead _ _ _ _ | .nodeWrite _ _ _ _ | .broadcast _ _ _ | .discover _ => false

/-- A MOVE or RETIRE among removed requests returns its entry (R94). -/
def State.returnItem (s : State) (x : QueueItem) : State :=
  match x.entry with
  | some h => if x.req.changesEntry then s.returnEntry h else s
  | none => s

/-- The returns of a list of removed requests. -/
def State.returnItems (s : State) (xs : List QueueItem) : State := xs.foldl State.returnItem s

/-- A removed request is answered (R91, R95). -/
def State.answerItem (c : Status) (r : EndReason) (s : State) (x : QueueItem) : State :=
  s.finish x.port x.slot { status := c, generation := s.itemGeneration x.entry, body := x.req.refusalBody r }

/-- The requests of a list are answered, oldest first. -/
def State.answerItems (s : State) (c : Status) (r : EndReason) (xs : List QueueItem) : State :=
  xs.foldl (State.answerItem c r) s

/-- A request of port `p` that waits for the queue of segment `g` completes with the status (R91, R95). -/
def State.finishWaiting (s : State) (g : Seg) (c : Status) (p : PortId) : State :=
  match s.waitingFor g p with
  | some (i, q) =>
    s.finish p i
      { status := c, generation := s.itemGeneration (q.handle?.bind handleOf), body := q.refusalBody .none }
  | none => s

/-- Every queued and waiting request of a segment is answered with `c`: the queue empties with its returns, then `carried`
answers the request on the line if there is one to answer, then the removed requests are answered oldest first, then the
waiting heads (R91, R95; log 14). Responses carry generations after the returns (log 21). -/
def State.flushQueue (s : State) (g : Seg) (c : Status) (r : EndReason) (carried : State → State) : State :=
  let items := (s.engine g).queue
  let t := (carried ((s.updEngine g fun e => { e with queue := [] }).returnItems items)).answerItems c r items
  (t.finishWaiting g c .a).finishWaiting g c .b

/-! ### The commands -/

/-- NODE_READ (R87). -/
def execNodeRead (p : PortId) (s : State) : Host.Outcome State Fault Refusal := .next (s.dispatchLine p .nodeRead)

/-- NODE_WRITE (R88). -/
def execNodeWrite (p : PortId) (s : State) : Host.Outcome State Fault Refusal := .next (s.dispatchLine p .nodeWrite)

/-- BROADCAST (R89). -/
def execBroadcast (p : PortId) (s : State) : Host.Outcome State Fault Refusal := .next (s.dispatchLine p .broadcast)

/-- DISCOVER (R121). -/
def execDiscover (p : PortId) (s : State) : Host.Outcome State Fault Refusal := .next (s.dispatchLine p .discover)

/-- MOVE (R145, R146). -/
def execMove (p : PortId) (s : State) : Host.Outcome State Fault Refusal := .next (s.dispatchLine p .move)

/-- RETIRE (R153, R154). -/
def execRetire (p : PortId) (s : State) : Host.Outcome State Fault Refusal := .next (s.dispatchLine p .retire)

/-- INTAKE_ADMISSION (R78): with no free place, no waiting request or in STARTING nothing changes (log 2). -/
def execIntakeAdmission (g : Seg) (s : State) : Host.Outcome State Fault Refusal :=
  .next (if s.runState.isStarting = false ∧ s.queueHasPlace g = true then s.arbitrate g else s)

end Sys2Proof.Machine
end

