-- ==== Sys2Proof/Machine/Exchanges.lean ====
section
/-! DEFINITION. Exchanges (08_command_ports.md): EXCHANGE_START with the status byte and the response chosen (R161, R162),
EXCHANGE_END with the removal of a response read whole (R163), the judgement of the request frame (R165, R166), the taking
of a request (R169), PORT_RESET (R28, R100, R175, R176, R188) and the return to RUN of a WAKE (R206). -/

namespace Sys2Proof.Machine

/-! ### The start of an exchange -/

/-- The oldest COMPLETED response of a port with its slot (R162). -/
def PortState.oldest (x : PortState) : Option (SlotIx × Response) :=
  match x.completed with
  | [] => none
  | i :: _ =>
    match x.slots[i] with
    | .completed _ r => some (i, r)
    | .free | .waiting _ | .dispatched _ | .onLine _ => none

/-- The exchange that begins now at port `p` (R161, R162); one that begins in SETTLING sends fill (R189). -/
def State.newExchange (s : State) (p : PortId) : Exchange :=
  let chosen := if s.runState.isSettling then none else (s.port p).oldest
  { status := s.statusByte p, response := chosen.map Prod.snd, slot := chosen.map Prod.fst }

/-- The bytes that the part sends in an exchange before the fill: the status byte, then the frame of the response chosen
(R160, R162). -/
def Exchange.bytes (x : Exchange) : List Byte :=
  x.status :: (match x.response with | some r => r.frame | none => [])

/-- Byte `n` of what the part sends in an exchange: after its bytes, or after the status byte when no response was chosen,
0x00 fill for as long as the host clocks (R162). -/
def Exchange.byteAt (x : Exchange) (n : Nat) : Byte := x.bytes.getD n 0x00

/-- The bit that the part shifts out with clock `k` of an exchange, the first clock being 0: most significant bit of each byte
first (R160). -/
def Exchange.bitAt (x : Exchange) (k : Nat) : Bool := (x.byteAt (k / 8)).getLsbD (7 - k % 8)

/-- The bits that the part shifts out in an exchange of `n` clocks. -/
def Exchange.bits (x : Exchange) (n : Nat) : List Bool := (List.range n).map x.bitAt

/-! ### The removal -/

/-- A response is removed: its slot becomes FREE and it leaves the completion order (R163). -/
def PortState.removeResponse (x : PortState) (i : SlotIx) : PortState :=
  { x with slots := x.slots.set i .free, completed := x.completed.filter (· != i) }

/-- Whether a slot is COMPLETED with the given response. -/
def Slot.holds (c : Slot) (r : Response) : Bool :=
  match c with
  | .completed _ r' => r' = r
  | .free | .waiting _ | .dispatched _ | .onLine _ => false

/-- The removal at the end of an exchange of `n` clocks (R163): the response is removed when the host clocked through its last
bit and the slot still holds that response. -/
def PortState.afterDelivery (x : PortState) (e : Exchange) (n : Nat) : PortState :=
  match e.slot, e.response with
  | some i, some r => if 8 * e.bytes.length ≤ n ∧ x.slots[i].holds r = true then x.removeResponse i else x
  | _, _ => x

/-! ### The judgement -/

/-- A frame that passes the frame checks: its kind, tag and body (R164). -/
structure TakenFrame where
  kind : ReqKind
  tag : Byte
  body : List Byte
  deriving DecidableEq, Repr

/-- What the bytes of an exchange make (R164, R165). -/
inductive FrameVerdict where
  | nothing
  | bad
  | frame (f : TakenFrame)
  deriving DecidableEq, Repr

/-- The frame checks of R165: no request, an unknown kind, a length byte missing or above 40, a frame cut short, a bad
CRC. Bytes after the frame's last byte are not read (R164). -/
def judgeFrame (sent : List Byte) : FrameVerdict :=
  match sent with
  | [] => .nothing
  | k :: rest =>
    if k = 0 then .nothing
    else
      match kindOf k, rest with
      | some kind, tag :: len :: more =>
        if 40 < len.toNat then .bad
        else
          match more.drop len.toNat with
          | hi :: lo :: _ =>
            if crc (k :: tag :: len :: more.take len.toNat) = word16 hi lo then
              .frame { kind := kind, tag := tag, body := more.take len.toNat }
            else .bad
          | _ => .bad
      | _, _ => .bad

/-- Whether the run state lets an exchange bring in a kind (R166). -/
def RunState.takes (r : RunState) (k : ReqKind) : Bool :=
  match r with
  | .starting _ => false
  | .run => true
  | .quieting | .quiet => k = .wake

/-- The run state that a WAKE records at the exchange end that takes it (R206). -/
def RunState.woke : RunState → Woke
  | .quieting => .quieting
  | .quiet => .quiet
  | .run | .starting _ => .run

/-- A FREE slot of a port; a host cannot tell the slots apart (R168), and the model takes the lowest. -/
def PortState.firstFree (x : PortState) : Option SlotIx := (List.finRange 8).find? fun i => x.slots[i] == .free

/-- A request takes a FREE slot as WAITING, at the tail of the WAITING list (R169). -/
def PortState.take (x : PortState) (i : SlotIx) (r : Request) : PortState :=
  { x with slots := x.slots.set i (.waiting r), waiting := x.waiting ++ [i] }

/-! ### PORT_RESET -/

/-- The request of port `p` that an engine carries loses its slot (R176). -/
def Activity.orphan (a : Activity) (p : PortId) : Activity :=
  match a.owner with
  | some o => if o.port = p then { a with owner := some { o with slot := none } } else a
  | none => a

/-- An engine after PORT_RESET of `p` (R100): `p`'s requests leave the queue, its DISCOVERs leave the attached list, and its
request on the line runs on without a slot. -/
def Engine.dropPort (e : Engine) (p : PortId) : Engine :=
  { e with
    queue := e.queue.filter (fun x => x.port != p)
    activity := e.activity.map (·.orphan p)
    pass := { e.pass with attached := e.pass.attached.filter (fun x => x.1 != p) } }

/-- The requests of port `p` in the queue of a segment. -/
def State.queuedOf (s : State) (p : PortId) (g : Seg) : List QueueItem := (s.engine g).queue.filter (fun x => x.port == p)

/-- An entry after PORT_RESET of `p` (R28): `p`'s claim becomes none and `p` leaves the watch set. -/
def Entry.dropPort (e : Entry) (p : PortId) : Entry :=
  { e.setWatch p false with claim := if e.claim = some p then none else e.claim }

/-- A port after its own PORT_RESET (R175, R188): every slot FREE, no lists, notice unit at its reset values; the
previous-outcome field and the exchange stay. -/
def PortState.cleared (x : PortState) : PortState :=
  { x with slots := Vector.replicate 8 .free, waiting := [], completed := [], waitsFor := none, notices := resetNotices }

/-- PORT_RESET of port `p`, as one event (R175). -/
def State.portReset (s : State) (p : PortId) : State :=
  let items := allSegments.flatMap (s.queuedOf p)
  let t := { s with entries := s.entries.map (fun (e : Entry) => e.dropPort p), engines := s.engines.map (fun (e : Engine) => e.dropPort p) }
  (t.returnItems items).updPort p PortState.cleared

/-! ### The end of an exchange -/

/-- The port's previous outcome written and its exchange over (R167). -/
def PortState.endExchange (x : PortState) (o : ExchangeOutcome) : PortState := { x with previous := o, exchange := none }

/-- The judgement of a frame that passes the frame checks (R165): the run state, PORT_RESET, a FREE slot; a WAKE returns the
run state to RUN before it takes its slot, and does so even when none is FREE (R206). -/
def State.takeFrame (s : State) (p : PortId) (f : TakenFrame) : State × ExchangeOutcome :=
  if s.runState.takes f.kind = false then (s, .notNow)
  else if f.kind = .portReset then (s.portReset p, .taken)
  else
    let t := if f.kind = .wake then s.wake else s
    match (t.port p).firstFree with
    | none => (t, .full)
    | some i =>
      let woke := if f.kind = .wake then s.runState.woke else .run
      (t.updPort p (·.take i { kind := f.kind, tag := f.tag, body := f.body, woke := woke }), .taken)

/-- The judgement of the bits that the host sent (R165): its whole bytes, most significant bit first (R160). -/
def State.judge (s : State) (p : PortId) (sent : List Bool) : State × ExchangeOutcome :=
  match judgeFrame (bytesOfBits sent) with
  | .nothing => (s, .none)
  | .bad => (s, .badFrame)
  | .frame f => s.takeFrame p f

/-- The removal at the end of an exchange of port `p` (R163); in SETTLING none is made, for an exchange in progress when a
RESET is taken removes no response (R177; log 25). -/
def State.deliver (s : State) (p : PortId) (e : Exchange) (n : Nat) : State :=
  if s.runState.isSettling then s else s.updPort p (·.afterDelivery e n)

/-- The end of the exchange `e` of port `p`: removal first, then the judgement, in one event (R163, R165). -/
def State.endExchange (s : State) (p : PortId) (e : Exchange) (sent : List Bool) : State :=
  let t := s.deliver p e sent.length
  let r := t.judge p sent
  r.1.updPort p (·.endExchange r.2)

/-- EXCHANGE_START (R160); a port has one exchange at a time, so that a start in an exchange does not come about (log 2). -/
def execExchangeStart (p : PortId) (s : State) : Host.Outcome State Fault Refusal :=
  .next
    (match (s.port p).exchange with
     | none => s.updPort p fun x => { x with exchange := some (s.newExchange p) }
     | some _ => s)

/-- EXCHANGE_END (R160, R165); without an exchange it does not come about (log 2). -/
def execExchangeEnd (p : PortId) (sent : List Bool) (s : State) : Host.Outcome State Fault Refusal :=
  .next
    (match (s.port p).exchange with
     | some e => s.endExchange p e sent
     | none => s)

end Sys2Proof.Machine
end

