-- ==== Sys2Proof/Machine/HostChanges.lean ====
section
/-! DEFINITION. The host changes to entries (02_host_changes_to_entries.md): SET_LABEL, SET_STRIDE, CLAIM, UNCLAIM, WATCH,
UNWATCH, and SEED and SEED_END of 10_restart_seeding_and_quiet_operation.md. -/

namespace Sys2Proof.Machine

/-- An OK answer with entry `h`'s generation in `s`, the state after the event. -/
def State.okFor (s : State) (h : Handle) (body : List Byte) : Answer :=
  { status := .ok, generation := (s.entry h).generation, body := body }

/-- SET_LABEL (R38). -/
def serveSetLabel (s : State) (p : PortId) (body : List Byte) : State × Answer :=
  match bodySetLabel body with
  | none => (s, badRequest)
  | some q =>
    match s.commonAll p q.handle q.expected with
    | .error a => (s, a)
    | .ok h =>
      let t := s.change h { s.entry h with label := q.label }
      (t, t.okFor h [])

/-- The stride that SET_STRIDE writes (R41): 1 makes it absent, 2 to 15 load the counter with 0. -/
def strideOf (n : Nat) : Option Stride := if n = 1 then none else some { value := n, counter := 0 }

/-- SET_STRIDE (R41). -/
def serveSetStride (s : State) (p : PortId) (body : List Byte) : State × Answer :=
  match bodySetStride body with
  | none => (s, badRequest)
  | some q =>
    match s.commonAll p q.handle q.expected with
    | .error a => (s, a)
    | .ok h =>
      let t := s.change h { s.entry h with stride := strideOf q.stride }
      (t, t.okFor h [])

/-- CLAIM and UNCLAIM: the entry's claim becomes `c` unless the other port holds it (R39, R40). -/
def serveClaim (c : Option PortId) (s : State) (p : PortId) (body : List Byte) : State × Answer :=
  match bodyByte body with
  | none => (s, badRequest)
  | some b =>
    match s.commonToPermit p b with
    | .error a => (s, a)
    | .ok h =>
      match s.checkClaim p h with
      | .error a => (s, a)
      | .ok () =>
        let t := s.setEntry h { s.entry h with claim := c }
        (t, t.okFor h [claimCode c])

/-- WATCH and UNWATCH: check 1 only; the port joins or leaves the watch set, and a port that leaves it loses the handle from
its change set (R43, R44). -/
def serveWatch (on : Bool) (s : State) (p : PortId) (body : List Byte) : State × Answer :=
  match bodyByte body with
  | none => (s, badRequest)
  | some b =>
    match handleOf b with
    | none => (s, Answer.bare .badHandle 0)
    | some h =>
      let t := s.setEntry h ((s.entry h).setWatch p on)
      let t := if on then t else
        t.updPort p fun x => { x with notices := { x.notices with changed := x.notices.changed.set h false } }
      (t, t.okFor h [watchCode (t.entry h).watchA (t.entry h).watchB])

/-- The checks of a SEED after its body, in the order of R200; the handle of the entry to fill when all pass. An answer that names
an entry carries its generation, as R200 and R201 give it, against the 0 of R173 (DEDUCED, log 39). -/
def State.checkSeed (s : State) (p : PortId) (q : SeedBody) : Except Answer Handle :=
  if s.seeding = false then .error (Answer.bare .wrongState 0)
  else if s.permits p q.segment = false then .error (Answer.bare .notPermitted 0)
  else if s.inPool q.segment q.address = false then .error (Answer.bare .outOfPool 0)
  else
    match s.mapSlot q.segment q.address with
    | .held h | .reserved h =>
      .error { status := .addressInUse, generation := (s.entry h).generation, body := [handleByte h] }
    | .joinHold => .error (Answer.bare .addressInUse 0)
    | .empty =>
      match s.holder q.identity with
      | some h => .error { status := .identityClash, generation := (s.entry h).generation, body := [handleByte h] }
      | none =>
        match s.lowestFree with
        | some h => .ok h
        | none => .error (Answer.bare .directoryFull 0)

/-- SEED (R200, R201). -/
def serveSeed (s : State) (p : PortId) (body : List Byte) : State × Answer :=
  match bodySeed body with
  | none => (s, badRequest)
  | some q =>
    match s.checkSeed p q with
    | .error a => (s, a)
    | .ok h =>
      let t := (s.setMap q.segment q.address (.held h)).change h
        ((s.entry h).filled .seeded q.identity q.cls q.segment q.address q.label)
      (t, t.okFor h [handleByte h])

/-- SEED_END (R202). -/
def serveSeedEnd (s : State) (_ : PortId) (body : List Byte) : State × Answer :=
  match bodyNone body with
  | none => (s, badRequest)
  | some () =>
    if s.seeding then ({ s with seeding := false }, Answer.bare .ok 0) else (s, Answer.bare .wrongState 0)

/-- SET_LABEL (R38). -/
def execSetLabel (p : PortId) (s : State) : Host.Outcome State Fault Refusal := .next (s.serve p .setLabel serveSetLabel)

/-- SET_STRIDE (R41). -/
def execSetStride (p : PortId) (s : State) : Host.Outcome State Fault Refusal := .next (s.serve p .setStride serveSetStride)

/-- CLAIM (R39). -/
def execClaim (p : PortId) (s : State) : Host.Outcome State Fault Refusal := .next (s.serve p .claim (serveClaim (some p)))

/-- UNCLAIM (R40). -/
def execUnclaim (p : PortId) (s : State) : Host.Outcome State Fault Refusal := .next (s.serve p .unclaim (serveClaim none))

/-- WATCH (R43). -/
def execWatch (p : PortId) (s : State) : Host.Outcome State Fault Refusal := .next (s.serve p .watch (serveWatch true))

/-- UNWATCH (R44). -/
def execUnwatch (p : PortId) (s : State) : Host.Outcome State Fault Refusal := .next (s.serve p .unwatch (serveWatch false))

/-- SEED (R200, R201). -/
def execSeed (p : PortId) (s : State) : Host.Outcome State Fault Refusal := .next (s.serve p .seed serveSeed)

/-- SEED_END (R202). -/
def execSeedEnd (p : PortId) (s : State) : Host.Outcome State Fault Refusal := .next (s.serve p .seedEnd serveSeedEnd)

end Sys2Proof.Machine
end

