-- ==== Sys2Proof/Machine/Activities.lean ====
section
/-! DEFINITION. Line activities: the frame of each step (R54), starting an activity or its next step, ending it (R72, R82,
R92), and the entry into FAULT (R95). -/

namespace Sys2Proof.Machine

/-! ### Frames -/

/-- A frame without item, length or payload. -/
def bareFrame (f : Function) (a : Byte) : Frame := { function := f, address := a, item := 0, length := 0, payload := [] }

/-- A frame with a payload whose length its length character gives. -/
def dataFrame (f : Function) (a item : Byte) (d : List Byte) : Frame :=
  { function := f, address := a, item := item, length := byte d.length, payload := d }

/-- The frame that an activity's present step sends (R54, R87 to R89, R109, R123, R129, R130, R134, R142, R143, R148 to R150,
R155). -/
def Work.frame : Work → Frame
  | .nodeRead _ item len _ _ a => { function := .readItem, address := a, item := item, length := len, payload := [] }
  | .nodeWrite _ item d _ _ a => dataFrame .writeItem a item d
  | .broadcast item d => dataFrame .broadcastWrite 0 item d
  | .poll _ _ _ a => bareFrame .presence a
  | .resolveRelease _ a x => dataFrame .releaseUnless 0 0 (a :: identBytes x)
  | .resolvePresence _ a _ => bareFrame .presence a
  | .move .one _ a t _ => dataFrame .setAddress a 0 [t]
  | .move .two _ _ t _ => bareFrame .presence t
  | .move .stray _ _ t x => dataFrame .releaseUnless 0 0 (t :: identBytes x)
  | .move .three _ a _ _ => bareFrame .presence a
  | .retire _ a _ => bareFrame .release a
  | .unparkAll => bareFrame .unparkAll 0
  | .callUnbound => bareFrame .callUnbound 0
  | .assign _ w _ a => dataFrame .assign 0 0 (identBytes w ++ [a])
  | .releaseStray _ a => bareFrame .release a
  | .park w => dataFrame .park 0 0 (identBytes w)

/-! ### Starting, stepping and ending -/

/-- The engine begins a line activity, in TRANSACTION or CONTEST (R72), with a first attempt (R70) and no retry made. -/
def State.begin (s : State) (g : Seg) (st : EngineState) (w : Work) (o : Option Owner) : State :=
  s.updEngine g fun e =>
    { e with
      state := st
      activity := some { work := w, owner := o, retries := 0 }
      line := { e.line with attempt := some (newAttempt w.frame) } }

/-- The next step of a multi-step activity: its retry count starts at 0 (R84). -/
def State.stepTo (s : State) (g : Seg) (a : Activity) (w : Work) : State :=
  s.updEngine g fun e =>
    { e with
      activity := some { a with work := w, retries := 0 }
      line := { e.line with attempt := some (newAttempt w.frame) } }

/-- The same frame once more (R84). -/
def State.retry (s : State) (g : Seg) (a : Activity) : State :=
  s.updEngine g fun e =>
    { e with
      activity := some { a with retries := a.retries + 1 }
      line := { e.line with attempt := some (newAttempt a.work.frame) } }

/-- The engine with no activity and no attempt. -/
def Engine.cleared (e : Engine) : Engine :=
  { e with offTaken := false, activity := none, line := { e.line with attempt := none } }

/-- The segment is on and no switch-off has been taken during the activity in progress (R92, R93). -/
def Engine.staysOn (e : Engine) : Bool := e.settings.on && !e.offTaken

/-- An engine whose activity has ended (R72): IDLE when the on/off setting is on, otherwise OFF, where the record of the last
pick is cleared (R80). -/
def Engine.afterActivity (e : Engine) : Engine :=
  if e.settings.on then { e.cleared with state := .idle } else { e.cleared with state := .off, tookQueue := false }

/-- The end of an activity (R72, R82). An active pass ends OFF with it when a switch-off was taken during the activity (R92,
R137), also when the setting is on again by then: a pass that R92 ended stays ended (R93; log 33). -/
def State.endActivity (s : State) (g : Seg) : State :=
  let t := s.updEngine g Engine.afterActivity
  if (s.engine g).staysOn then t else t.endPass g .off

/-- The end of a contest activity: a pass that has run 64 contests ends LIMIT, or OFF when a switch-off was taken during the
activity (R137). -/
def State.endContest (s : State) (g : Seg) : State :=
  let t := if (s.engine g).staysOn ∧ Config.passLimit ≤ (s.engine g).pass.contests then s.endPass g .limit else s
  t.endActivity g

/-- A count of the pass record grows. -/
def PassRecord.countLost (c : PassRecord) : PassRecord := { c with lost := c.lost + 1 }

/-! ### Answers of MOVE and RETIRE -/

/-- The step number that a MOVE response carries (R151, R213). -/
def MoveStep.number : MoveStep → Byte
  | .one => 1 | .two | .stray => 2 | .three => 3

/-- The answer of a MOVE whose ladder ends (R151, R213), from the state after the event. -/
def State.moveAnswer (s : State) (h : Handle) (st : Status) (code : Byte) (step : MoveStep) : Answer :=
  { status := st, generation := (s.entry h).generation
    body := [code, step.number, stateCode (s.entry h).state, (s.entry h).address] }

/-- The answer of a RETIRE whose RELEASE ends (R155, R213), from the state after the event. -/
def State.retireAnswer (s : State) (h : Handle) (st : Status) (code : Byte) (unconfirmed : Bool) : Answer :=
  { status := st, generation := (s.entry h).generation
    body := [code, boolByte unconfirmed, stateCode (s.entry h).state] }

/-! ### FAULT -/

/-- What STUCK does to the directory and the counts through the activity in progress (R95): a MOVE or RETIRE returns its
entry (R94); an ASSIGN frees its JOIN_HOLD and counts as lost (R135), and so do a PARK and a RELEASE of a stray (R129,
R134). -/
def State.stuckEffect (s : State) (g : Seg) (w : Work) : State :=
  match w with
  | .move _ h _ _ _ | .retire h _ _ => s.returnEntry h
  | .assign (.rejoin _) _ _ _ | .park _ | .releaseStray _ _ => s.updPass g PassRecord.countLost
  | .assign .newJoin _ _ a | .assign .transfer _ _ a => (s.setMap g a .empty).updPass g PassRecord.countLost
  | .nodeRead _ _ _ _ _ _ | .nodeWrite _ _ _ _ _ _ | .broadcast _ _ | .poll _ _ _ _ | .resolveRelease _ _ _
  | .resolvePresence _ _ _ | .unparkAll | .callUnbound => s

/-- The SEGMENT_FAULT answer of the request that the stuck activity carried (R87, R89, R95, R151, R156). -/
def State.stuckAnswer (s : State) (w : Work) : Answer :=
  match w with
  | .move step h _ _ _ => s.moveAnswer h .segmentFault 0 step
  | .retire h _ _ => s.retireAnswer h .segmentFault 0 false
  | .nodeRead h _ _ _ _ _ | .nodeWrite h _ _ _ _ _ => s.refuse h .segmentFault
  | .broadcast _ _ | .poll _ _ _ _ | .resolveRelease _ _ _ | .resolvePresence _ _ _ | .unparkAll | .callUnbound
  | .assign _ _ _ _ | .releaseStray _ _ | .park _ => Answer.bare .segmentFault 0

/-- The stuck activity's own request is answered. -/
def State.answerStuck (a : Activity) (s : State) : State := s.finishOwner a.owner (s.stuckAnswer a.work)

/-- The engine enters FAULT (R95): the activity ends, the queue and the waiting requests are answered SEGMENT_FAULT, the
pass ends, poll-due, discovery-due and the record of the last pick are cleared, and SEG_FAULT is raised. -/
def State.enterFault (s : State) (g : Seg) (a : Activity) : State :=
  let t := (s.updEngine g Engine.cleared).stuckEffect g a.work
  let t := (t.flushQueue g .segmentFault .fault (State.answerStuck a)).endPass g .fault
  (t.updEngine g fun e => { e with state := .fault, pollDue := false, discoveryDue := false, tookQueue := false }).raise
    .segFault

end Sys2Proof.Machine
end

