-- ==== Sys2Proof/Machine/Outcomes.lean ====
section
/-! DEFINITION. What the final outcome of a transaction does (R84 to R89, R109 to R116, R142, R143, R148 to R151, R155 to
R157, R123), for every activity but contests, which Joining.lean holds. -/

namespace Sys2Proof.Machine

/-- The outcomes of an attempt of a transaction (R70). -/
inductive LineOutcome where
  | accept (payload : List Byte)
  | refuse (code : Byte)
  | noReply
  | framing
  | collision
  | contention
  | sent
  | stuck
  deriving DecidableEq, Repr

/-- The identity that a PRESENCE or ASSIGN reply carries (R59). -/
def replyIdentity : List Byte → Ident
  | b0 :: b1 :: b2 :: b3 :: b4 :: b5 :: _ => identOf b0 b1 b2 b3 b4 b5
  | _ => 0

/-- Whether an outcome is ACCEPT with the given identity. -/
def LineOutcome.accepts (o : LineOutcome) (x : Ident) : Bool :=
  match o with
  | .accept d => replyIdentity d == x
  | .refuse _ | .noReply | .framing | .collision | .contention | .sent | .stuck => false

/-- Whether entry `h` is still the one recorded: non-FREE, with that identity, on that segment (R83, R86, R112). -/
def State.isStill (s : State) (h : Handle) (x : Ident) (g : Seg) : Bool :=
  !(s.entry h).isFree && (s.entry h).identity == x && (s.entry h).segment == g

/-! ### Host transactions -/

/-- The effect of a host transaction's final outcome on its entry (R86). -/
def State.hostOutcome (s : State) (g : Seg) (h : Handle) (x : Ident) (sg : Seg) (o : LineOutcome) : State :=
  if s.isStill h x sg then
    match o with
    | .accept _ | .refuse _ => s.setSilence h 0
    | .noReply | .framing =>
      match (s.entry h).state with
      | .seeded | .present => s.countSilence h
      | .absent | .conflict => s.setSilence h (moreSilence (s.entry h).silence)
      | .free | .moving _ _ | .retiring _ _ => s
    | .collision =>
      match (s.entry h).state with
      | .seeded | .present | .absent => s.makeConflict g h
      | .conflict => s.appendResolution g h
      | .free | .moving _ _ | .retiring _ _ => s
    | .contention | .sent | .stuck => s
  else s

/-- The status of a host transaction's final outcome (R87). -/
def LineOutcome.status : LineOutcome → Status
  | .accept _ | .sent => .ok
  | .refuse _ => .refused
  | .noReply => .noReply
  | .framing => .framing
  | .collision => .collision
  | .contention => .contention
  | .stuck => .segmentFault

/-- The answer of a NODE_READ (R87) or NODE_WRITE (R88): the data of a read, the code of a refusal. -/
def State.transferAnswer (s : State) (h : Handle) (o : LineOutcome) (reads : Bool) : Answer :=
  { status := o.status, generation := (s.entry h).generation
    body :=
      match o with
      | .accept d => if reads then d else []
      | .refuse c => [c]
      | .noReply | .framing | .collision | .contention | .sent | .stuck => [] }

/-! ### Presence polls -/

/-- An unanswered poll of an ABSENT entry (R111) with the grace test (R115): automatic retirement (R116) when the segment's
grace is 1 or more, the age has reached it and the entry is unclaimed. -/
def State.ageAbsent (s : State) (h : Handle) : State :=
  let e := s.entry h
  let grace := (s.engine e.segment).settings.grace
  let t := s.setEntry h { e with silence := moreSilence e.silence, age := moreAge e.age }
  if 1 ≤ grace ∧ grace ≤ moreAge e.age ∧ e.claim = none then t.freeRetired h else t

/-- The effect of a poll's final outcome on the polled entry as it stands (R110 to R112). -/
def State.pollOutcome (s : State) (g : Seg) (h : Handle) (x : Ident) (sg : Seg) (o : LineOutcome) : State :=
  if s.isStill h x sg then
    match (s.entry h).state with
    | .seeded | .present =>
      match o with
      | .accept d => if replyIdentity d = (s.entry h).identity then s.confirm h else s.makeConflict g h
      | .collision => s.makeConflict g h
      | .noReply | .framing => s.countSilence h
      | .refuse _ | .contention | .sent | .stuck => s
    | .absent =>
      match o with
      | .accept d => if replyIdentity d = (s.entry h).identity then s.confirm h else s.makeConflict g h
      | .collision => s.makeConflict g h
      | .noReply | .framing => s.ageAbsent h
      | .refuse _ | .contention | .sent | .stuck => s
    | .moving _ _ | .retiring _ _ => if o.accepts (s.entry h).identity then s.setSilence h 0 else s
    | .free | .conflict => s
  else s

/-! ### Resolutions -/

/-- The effect of a resolution's second step on entry `h` as it stands (R143, R144); the handle then leaves the list. -/
def State.resolutionOutcome (s : State) (g : Seg) (h : Handle) (x : Ident) (o : LineOutcome) : State :=
  let t :=
    match (s.entry h).state with
    | .conflict =>
      match o with
      | .accept d => if replyIdentity d = x then s.confirm h else s
      | .noReply => s.makeAbsent h (s.entry h).silence
      | .refuse _ | .framing | .collision | .contention | .sent | .stuck => s
    | .retiring _ _ => if o.accepts x then s.setSilence h 0 else s
    | .free | .seeded | .present | .absent | .moving _ _ => s
  t.dropResolution g h

/-! ### MOVE ladders -/

/-- The end of a MOVE ladder that does not complete: the RESERVED target becomes EMPTY, then `f` gives the entry its state
(R151). -/
def State.endMove (s : State) (h : Handle) (f : State → State) : State :=
  match (s.entry h).state with
  | .moving _ t => f (s.setMap (s.entry h).segment t .empty)
  | .free | .seeded | .present | .absent | .conflict | .retiring _ _ => s

/-- A completed move (R151). -/
def State.completeMove (s : State) (h : Handle) : State :=
  match (s.entry h).state with
  | .moving _ t =>
    let e := s.entry h
    ((s.setMap e.segment e.address .empty).setMap e.segment t (.held h)).change h
      { e with address := t, state := .present, silence := 0, age := 0 }
  | .free | .seeded | .present | .absent | .conflict | .retiring _ _ => s

/-- The ladder ends: `t` is the state after its effect, the MOVE is answered, and the activity ends (R151). -/
def State.finishMove (t : State) (g : Seg) (a : Activity) (h : Handle) (st : Status) (code : Byte) (step : MoveStep) : State :=
  (t.finishOwner a.owner (t.moveAnswer h st code step)).endActivity g

/-- The outcome of a MOVE step: the next step, or the end of the ladder (R148 to R150). -/
def State.moveOutcome (s : State) (g : Seg) (a : Activity) (step : MoveStep) (h : Handle) (addr target : Byte) (x : Ident)
    (o : LineOutcome) : State :=
  let go (n : MoveStep) : State := s.stepTo g a (.move n h addr target x)
  let conflictAt : State := s.endMove h fun t => t.makeConflict g h
  let backToPrior : State := s.returnEntry h
  match step with
  | .one =>
    match o with
    | .accept _ => go .two
    | .refuse c => (s.endMove h (·.confirm h)).finishMove g a h .refused c .one
    | .noReply | .framing => go .three
    | .collision => conflictAt.finishMove g a h .collision 0 .one
    | .contention | .sent | .stuck => backToPrior.finishMove g a h .contention 0 .one
  | .two =>
    match o with
    | .accept d => if replyIdentity d = x then (s.completeMove h).finishMove g a h .ok 0 .two else go .stray
    | .collision => go .stray
    | .refuse _ | .noReply | .framing | .contention | .sent | .stuck => go .three
  | .stray => go .three
  | .three =>
    match o with
    | .accept d =>
      if replyIdentity d = x then (s.endMove h (·.confirm h)).finishMove g a h .noReply 0 .three
      else conflictAt.finishMove g a h .conflict 0 .three
    | .noReply | .framing =>
      (s.endMove h fun t => t.makeAbsent h (t.entry h).silence).finishMove g a h .noReply 0 .three
    | .collision => conflictAt.finishMove g a h .collision 0 .three
    | .contention | .refuse _ | .sent | .stuck => backToPrior.finishMove g a h .contention 0 .three

/-! ### RETIRE -/

/-- The effect of a RELEASE's final outcome on the RETIRING entry (R156, R157). -/
def State.retireEffect (s : State) (g : Seg) (h : Handle) (force : Bool) (o : LineOutcome) : State :=
  match (s.entry h).state with
  | .retiring pr _ =>
    if force then s.freeRetired h
    else
      match o with
      | .accept _ => s.freeRetired h
      | .refuse _ => s.restore h pr 0
      | .noReply | .framing => s.restore h pr (moreSilence (s.entry h).silence)
      | .collision => s.makeConflict g h
      | .contention | .sent | .stuck => s.restore h pr (s.entry h).silence
  | .free | .seeded | .present | .absent | .conflict | .moving _ _ => s

/-- The status, code and unconfirmed flag that answer a RETIRE (R155, R156, R213). -/
def retireResult (force : Bool) (o : LineOutcome) : Status × Byte × Bool :=
  let code : Byte := match o with | .refuse c => c | _ => 0
  match force, o with
  | _, .accept _ => (.ok, code, false)
  | true, _ => (.ok, code, true)
  | false, o => (o.status, code, false)

/-- The end of a RETIRE (R155, R156). -/
def State.retireOutcome (s : State) (g : Seg) (a : Activity) (h : Handle) (force : Bool) (o : LineOutcome) : State :=
  let t := s.retireEffect g h force o
  let r := retireResult force o
  (t.finishOwner a.owner (t.retireAnswer h r.1 r.2.1 r.2.2)).endActivity g

/-! ### The rest -/

/-- The end of a NODE_READ or NODE_WRITE (R86 to R88). -/
def State.transferOutcome (s : State) (g : Seg) (a : Activity) (h : Handle) (x : Ident) (sg : Seg) (reads : Bool)
    (o : LineOutcome) : State :=
  let t := s.hostOutcome g h x sg o
  (t.finishOwner a.owner (t.transferAnswer h o reads)).endActivity g

/-- The end of a BROADCAST (R89). -/
def State.broadcastOutcome (s : State) (g : Seg) (a : Activity) (o : LineOutcome) : State :=
  (s.finishOwner a.owner (Answer.bare o.status 0)).endActivity g

/-- The end of an UNPARK_ALL (R123): SENT sets the parked count to 0. -/
def State.unparkOutcome (s : State) (g : Seg) (o : LineOutcome) : State :=
  (if o = .sent then s.updEngine g fun e => { e with parked := 0 } else s).endActivity g

end Sys2Proof.Machine
end

