-- ==== Sys2Proof/Machine/Joining.lean ====
section
/-! DEFINITION. Contests and joins (06_discovery_and_joining.md): the contest outcomes, the join decision, the ASSIGN outcome
with its fresh decision, the follow-ups PARK and RELEASE, and the step from an attempt's outcome to a retry or to the
activity's own rule (R84). -/

namespace Sys2Proof.Machine

/-- The join decisions (R127). -/
inductive Decision where
  | newJoin (a : Byte)
  | rejoin (h : Handle)
  | transfer (h : Handle) (a : Byte)
  | park (n : Notice)
  deriving DecidableEq, Repr

/-- The join decision for identity `w`, read on segment `g` (R127). -/
def State.decide (s : State) (g : Seg) (w : Ident) : Decision :=
  match s.holder w with
  | none =>
    match s.lowestFree, s.lowestEmpty g with
    | none, _ => .park .directoryFull
    | some _, none => .park .poolFull
    | some _, some a => .newJoin a
  | some h =>
    if (s.entry h).segment = g then
      match (s.entry h).state with
      | .seeded | .present | .absent => .rejoin h
      | .free | .conflict | .moving _ _ | .retiring _ _ => .park .clash
    else
      match (s.entry h).state with
      | .seeded | .absent =>
        match s.lowestEmpty g with
        | some a => .transfer h a
        | none => .park .poolFull
      | .free | .present | .conflict | .moving _ _ | .retiring _ _ => .park .clash

/-- A contest is counted (R125). -/
def PassRecord.countContest (c : PassRecord) : PassRecord := { c with contests := c.contests + 1 }

/-- A contest ends LOST, or CONTENTION after its repeats (R125). -/
def State.contestLost (s : State) (g : Seg) : State :=
  (s.updPass g fun c => c.countContest.countLost).endContest g

/-- A contest ends NO_CONTENDER (R125, R126): the pass ends NONE_LEFT. When a switch-off was taken during it the rules leave
open whether the pass ends NONE_LEFT or OFF (log 9). -/
def State.noContender (s : State) (g : Seg) : State :=
  let t := s.updPass g PassRecord.countContest
  let t := if (s.engine g).staysOn || Config.noneLeftBeforeOff g then t.endPass g .noneLeft else t
  t.endActivity g

/-- A contest ends WON with identity `w` and class `c` (R125, R127): the decision is taken and its follow-up begins. -/
def State.contestWon (s : State) (g : Seg) (a : Activity) (w : Ident) (c : Byte) : State :=
  let t := s.updPass g PassRecord.countContest
  match s.decide g w with
  | .newJoin adr => (t.setMap g adr .joinHold).stepTo g a (.assign .newJoin w c adr)
  | .transfer _ adr => (t.setMap g adr .joinHold).stepTo g a (.assign .transfer w c adr)
  | .rejoin h => t.stepTo g a (.assign (.rejoin h) w c (t.entry h).address)
  | .park n => (t.raise n).stepTo g a (.park w)

/-- The end of a PARK (R129). -/
def State.parkOutcome (s : State) (g : Seg) (o : LineOutcome) : State :=
  (if o = .sent then
    s.updEngine g fun e => { e with parked := min (e.parked + 1) 255, pass := { e.pass with parked := e.pass.parked + 1 } }
  else s.updPass g PassRecord.countLost).endContest g

/-- A new join applied to the FREE entry `h` (R131). -/
def State.applyJoin (s : State) (g : Seg) (h : Handle) (w : Ident) (c adr : Byte) : State :=
  ((((s.setMap g adr (.held h)).change h ((s.entry h).filled .present w c g adr none)).raise .joined).updPass g
    fun x => { x with joined := x.joined + 1 }).endContest g

/-- A transfer applied to entry `h` (R133). -/
def State.applyTransfer (s : State) (g : Seg) (h : Handle) (c adr : Byte) : State :=
  let e := s.entry h
  (((((s.setMap e.segment e.address .empty).setMap g adr (.held h)).change h
    { e with segment := g, address := adr, state := .present, silence := 0, age := 0, cls := c }).raise .joined).updPass g
    fun x => { x with rejoined := x.rejoined + 1 }).endContest g

/-- A rejoin applied to entry `h`, when it still meets the condition of R132. -/
def State.applyRejoin (s : State) (g : Seg) (h : Handle) (w : Ident) (c adr : Byte) : State :=
  let e := s.entry h
  let counted (t : State) : State := (t.updPass g fun x => { x with rejoined := x.rejoined + 1 }).endContest g
  let lost : State := (s.updPass g PassRecord.countLost).endContest g
  if s.isStill h w g && e.address == adr then
    match e.state with
    | .seeded | .present | .absent => counted (s.change h { e with state := .present, silence := 0, age := 0, cls := c })
    | .moving _ _ | .retiring _ _ => counted (s.change h { e with silence := 0, cls := c })
    | .free | .conflict => lost
  else lost

/-- A park decided at the ASSIGN reply (R134): the JOIN_HOLD becomes EMPTY, the notice is raised, and the RELEASE of the node
just bound follows. -/
def State.parkAtReply (s : State) (g : Seg) (a : Activity) (n : Notice) (w : Ident) (adr : Byte) : State :=
  ((s.setMap g adr .empty).raise n).stepTo g a (.releaseStray w adr)

/-- The fresh decision at the reply of a new join's or a transfer's ASSIGN (R134). -/
def State.freshDecision (s : State) (g : Seg) (a : Activity) (w : Ident) (c adr : Byte) : State :=
  match s.holder w with
  | none =>
    match s.lowestFree with
    | some h => s.applyJoin g h w c adr
    | none => s.parkAtReply g a .directoryFull w adr
  | some h =>
    match (s.entry h).segment == g, (s.entry h).state with
    | false, .seeded | false, .absent => s.applyTransfer g h c adr
    | _, _ => s.parkAtReply g a .clash w adr

/-- A failed ASSIGN (R135): a JOIN_HOLD becomes EMPTY, and the contest counts as lost. -/
def State.assignFailed (s : State) (g : Seg) (kind : JoinKind) (adr : Byte) : State :=
  let t :=
    match kind with
    | .newJoin | .transfer => s.setMap g adr .empty
    | .rejoin _ => s
  (t.updPass g PassRecord.countLost).endContest g

/-- The final outcome of an ASSIGN (R131 to R135). -/
def State.assignOutcome (s : State) (g : Seg) (a : Activity) (kind : JoinKind) (w : Ident) (c adr : Byte) (o : LineOutcome) :
    State :=
  if o.accepts w then
    match kind with
    | .rejoin h => s.applyRejoin g h w c adr
    | .newJoin | .transfer => s.freshDecision g a w c adr
  else s.assignFailed g kind adr

/-! ### From an attempt's outcome to the activity's rule -/

/-- The final outcome of the transaction that an activity is carrying out; STUCK is `enterFault`'s (R84, R95). -/
def State.finalOutcome (s : State) (g : Seg) (a : Activity) (o : LineOutcome) : State :=
  match a.work with
  | .nodeRead h _ _ x sg _ => s.transferOutcome g a h x sg true o
  | .nodeWrite h _ _ x sg _ => s.transferOutcome g a h x sg false o
  | .broadcast _ _ => s.broadcastOutcome g a o
  | .poll h x sg _ => (s.pollOutcome g h x sg o).endActivity g
  | .resolveRelease h adr x => s.stepTo g a (.resolvePresence h adr x)
  | .resolvePresence h _ x => (s.resolutionOutcome g h x o).endActivity g
  | .move step h adr t x => s.moveOutcome g a step h adr t x o
  | .retire h _ force => s.retireOutcome g a h force o
  | .unparkAll => s.unparkOutcome g o
  | .callUnbound => s.contestLost g
  | .assign kind w c adr => s.assignOutcome g a kind w c adr o
  | .releaseStray w _ => s.stepTo g a (.park w)
  | .park _ => s.parkOutcome g o

/-- The retries that an activity's present transaction may make: the retry limit in force, and none for a forced RETIRE
(R76, R84, R155). -/
def State.retryLimit (s : State) (g : Seg) (w : Work) : Nat :=
  match w with
  | .retire _ _ true => 0
  | _ => (s.engine g).settings.retries

/-- Whether an outcome is repeated while the limit allows (R84). -/
def LineOutcome.repeats : LineOutcome → Bool
  | .noReply | .framing | .contention => true
  | .accept _ | .refuse _ | .collision | .sent | .stuck => false

/-- An attempt ends (R70, R84): the line interface has none in progress; STUCK puts the engine into FAULT, an outcome that
may be repeated is while the limit allows, and any other is the transaction's final outcome. -/
def State.attemptEnds (s : State) (g : Seg) (o : LineOutcome) : State :=
  let s := s.updLine g fun l => { l with attempt := none }
  match (s.engine g).activity with
  | none => s
  | some a =>
    if o = .stuck then s.enterFault g a
    else if o.repeats ∧ a.retries < s.retryLimit g a.work then s.retry g a
    else s.finalOutcome g a o

end Sys2Proof.Machine
end

