-- ==== Sys2Proof/Machine/Prescaler.lean ====
section
/-! DEFINITION. The prescaler (R51, R208): its starting position, one reference cycle, the six rate taps with the clocks taken
from them, and the millisecond tick. -/

namespace Sys2Proof.Machine

/-- The prescaler set to its starting position and running (R191, R208); both dividers start at 0 (log 34). -/
def Prescaler.start : Prescaler := { running := true, chain := 0, group := 0 }

/-- The prescaler stopped by a RESET; its dividers stand where they are (R208; log 34). -/
def Prescaler.stopped (x : Prescaler) : Prescaler := { x with running := false }

/-- One cycle of the reference clock: both dividers of a running prescaler count it (R208). -/
def Prescaler.cycle (x : Prescaler) : Prescaler :=
  if x.running then { x with chain := x.chain + 1, group := (x.group + 1) % Config.groupCycles } else x

/-- The divisor of the tap of a rate code, 0 to 5: the reference cycles of one bit time (R51, R208). -/
def tapDivisor (code : Nat) : Nat := 1024 / 2 ^ code

/-- The reference cycles of a quarter bit time at a rate code (R50, R51). -/
def quarterBit (code : Nat) : Nat := tapDivisor code / 4

/-- The level of the tap of a rate code: the bit of the divider chain that repeats every `tapDivisor code` cycles. -/
def Prescaler.tap (x : Prescaler) (code : Nat) : Bool := x.chain.getLsbD (9 - code)

/-- The bit clock of a segment's line interface: the tap of the segment's rate code (R51, R208). -/
def State.bitClock (s : State) (g : Seg) : Bool := s.prescaler.tap (s.segSetup g).rate

/-- Whether the part is in LOADING, where it drives the setup lines (R189, R193). -/
def RunState.isLoading : RunState → Bool
  | .starting .loading => true
  | .starting (.settling _) | .starting .clearing | .run | .quieting | .quiet => false

/-- The setup clock (R193, R208): the level of the divide-by-1024 tap in LOADING. No rule gives the clock line a level outside
LOADING, where the model gives none (log 24). -/
def State.setupClock (s : State) : Option Bool := if s.runState.isLoading then some (s.prescaler.tap 0) else none

/-- The counts of the second divider at which a tick falls: four ticks 19,661 cycles apart, and the fifth, 19,660 cycles on,
as the group is whole and the count returns to 0 (R208). -/
def tickPlaces : List Nat := [19661, 39322, 58983, 78644, 0]

/-- Whether the coming reference cycle brings a millisecond tick (R208). -/
def Prescaler.ticks (x : Prescaler) : Bool := x.running && tickPlaces.contains x.cycle.group

end Sys2Proof.Machine
end

