-- ==== Sys2Proof/Machine/Levels.lean ====
section
/-! DEFINITION. The levels of the segment lines: what the part drives by phase and bit, the wired level (R49), the glitch filter
(R50), and one cycle of the reference clock (R51, R208). -/

namespace Sys2Proof.Machine

/-! ### What the part drives (R49) -/

/-- Whether bit `k` of the frame is one that the part may be sending in the attempt's phase: in an addressed frame the 11
bits of the address character come before the acknowledge slot and the others after it (R55). -/
def Attempt.sendingBit (a : Attempt) (k : Nat) : Bool :=
  match a.phase with
  | .address => !a.frame.function.addressed || k < 11
  | .body => 11 ≤ k
  | .idleWait | .ownBreak | .replyWait | .reply | .slots | .classWait => false

/-- The level of bit `k` of its frame where the attempt may be sending it: a 0 is dominant, a 1 recessive (R52). None outside
the bits sent: in the idle wait, the acknowledge slot, a reply, the lead-in, the slots and the class window. -/
def Attempt.sends (a : Attempt) (k : Nat) : Option Level :=
  if a.sendingBit k then a.frame.bits[k]?.map fun b => if b then .recessive else .dominant else none

/-- Whether the part drives a break of its own on a segment's line (R63, R71): not in STARTING, unfitted or in FAULT (R49), and
in an OFF engine as `Config.breakOutlastsOff` has it (log 29). -/
def State.pullsBreak (s : State) (g : Seg) : Bool :=
  (s.engine g).line.driving && !s.runState.isStarting && (s.segSetup g).fitted && (s.engine g).state != .fault &&
    ((s.engine g).state != .off || Config.breakOutlastsOff g)

/-- Whether the part sends no frame on a segment's line whatever its line interface holds (R49): in STARTING, unfitted, OFF or in
FAULT. -/
def State.keepsReleased (s : State) (g : Seg) : Bool :=
  s.runState.isStarting || !(s.segSetup g).fitted || (s.engine g).state == .off || (s.engine g).state == .fault

/-- The level that the part drives on a segment's line in a bit time, `k` being the bit of the frame that it has come to if it is
sending one: its own break is dominant, a frame's bit is as sent, and in any other bit time the part releases the line (R49). -/
def State.drives (s : State) (g : Seg) (k : Nat) : Level :=
  if s.pullsBreak g then .dominant
  else if s.keepsReleased g then .recessive
  else
    match (s.engine g).line.attempt with
    | some a => (a.sends k).getD .recessive
    | none => .recessive

/-- The level of a line that several stations drive: dominant if any of them drives dominant (R49). -/
def wired (stations : List Level) : Level := if .dominant ∈ stations then .dominant else .recessive

/-- The level of a segment's line in bit `k` when the nodes drive `nodes` (R49). -/
def State.onWire (s : State) (g : Seg) (k : Nat) (nodes : List Level) : Level := wired (s.drives g k :: nodes)

/-- The raw level of a segment's line (R49, R50): the part's own break, if it drives one, and what stands at the pin (log 36). -/
def State.raw (s : State) (g : Seg) : Level :=
  wired [if s.pullsBreak g then .dominant else .recessive, (s.engine g).line.pin]

/-! ### The glitch filter (R50) -/

/-- One reference cycle of the filter, `raw` being the raw level and `quarter` the cycles of a quarter bit time (R50): the
filtered level follows once the raw level has held a new value for them, and any shorter pulse is dropped. Both runs are then
0: the old one is over and the new one begins. -/
def Line.sample (quarter : Nat) (raw : Level) (l : Line) : Line :=
  if raw = l.level then { l with held := 0 }
  else if l.held + 1 < quarter then { l with held := l.held + 1 }
  else { l with level := raw, held := 0, recessiveRun := 0, dominantRun := 0 }

/-- An engine after one cycle of a running prescaler: the filter of a fitted segment counts it at the segment's rate (R50, R51;
log 36). -/
def State.sampled (s : State) (g : Seg) : Engine :=
  let e := s.engine g
  if (s.segSetup g).fitted then { e with line := e.line.sample (quarterBit (s.segSetup g).rate) (s.raw g) } else e

/-- One cycle of the reference clock: a running prescaler counts it, and with it the line filters (R50, R51, R208; log 3). -/
def State.cycle (s : State) : State :=
  if s.prescaler.running then { s with prescaler := s.prescaler.cycle, engines := Vector.ofFn s.sampled } else s

end Sys2Proof.Machine
end

