-- ==== Sys2Proof/Machine/LineEvents.lean ====
section
/-! DEFINITION. The events of the line interfaces (03_the_segment_line.md). Each acts on the attempt in progress when the
attempt is in a phase the event belongs to (R70); otherwise the line's level means nothing to the attempt and nothing changes
(R53, R58, R62; log 2). -/

namespace Sys2Proof.Machine

/-- The attempt in progress on a segment. -/
def State.attempt (s : State) (g : Seg) : Option Attempt := (s.engine g).line.attempt

/-- The attempt in progress changed by `f`, if there is one. -/
def State.updAttempt (s : State) (g : Seg) (f : Attempt → Attempt) : State :=
  s.updLine g fun l => { l with attempt := l.attempt.map f }

/-- The attempt goes on to a phase. -/
def State.phaseTo (s : State) (g : Seg) (ph : AttemptPhase) : State := s.updAttempt g fun a => { a with phase := ph }

/-- Whether the attempt in progress is in one of the given phases. -/
def State.inPhase (s : State) (g : Seg) (phs : List AttemptPhase) : Bool :=
  match s.attempt g with
  | some a => phs.contains a.phase
  | none => false

/-! ### Sending -/

/-- IDLE_GAP_ELAPSED (R57): an attempt in IDLE_WAIT begins its frame. -/
def State.idleGap (s : State) (g : Seg) (run : Nat) : State :=
  if Config.idleGap ≤ run ∧ (s.engine g).line.driving = false ∧ s.inPhase g [.idleWait] = true then
    (s.updLine g (·.sawRecessive run)).phaseTo g .address
  else s

/-- STUCK (R58): an attempt in IDLE_WAIT, which has sent no bit, ends STUCK. -/
def State.stuckLine (s : State) (g : Seg) (run : Nat) : State :=
  if Config.stuckTime ≤ run ∧ (s.engine g).line.driving = false ∧ s.inPhase g [.idleWait] = true then
    (s.updLine g (·.sawDominant run)).attemptEnds g .stuck
  else s

/-- CONTENTION (R63): a bit that the part sends recessive reads dominant; it stops the frame and drives its own break. The
filtered level is that reading; the dominant run, whose onset no rule gives, is written as 0 (log 29). -/
def State.contend (s : State) (g : Seg) (k : Nat) : State :=
  match s.attempt g with
  | some a =>
    if a.sends k = some .recessive then
      (s.updLine g fun l => { l.sawDominant 0 with driving := true }).phaseTo g .ownBreak
    else s
  | none => s

/-- The line as the part releases a break of its own of `run` bit times: the filtered level is still dominant, a quarter bit time
behind the raw one (R50), with the break's length as its dominant run (log 29). -/
def Line.breakReleased (l : Line) (run : Nat) : Line :=
  { l with level := .dominant, held := 0, recessiveRun := 0, dominantRun := run, driving := false }

/-- BREAK_RELEASE (R63, R71): the part's own break of 24 bit times ends and it releases the line; a contended attempt ends
CONTENTION. -/
def State.releaseBreak (s : State) (g : Seg) (run : Nat) : State :=
  if Config.ownBreakTime ≤ run ∧ (s.engine g).line.driving = true then
    let t := s.updLine g (·.breakReleased run)
    if s.inPhase g [.ownBreak] then t.attemptEnds g .contention else t
  else s

/-- ACKNOWLEDGE_SLOT (R55) of an addressed frame: dominant lets the frame go on, recessive ends the attempt NO_REPLY. -/
def State.acknowledge (s : State) (g : Seg) (dominant : Bool) : State :=
  match s.attempt g with
  | some a =>
    if a.phase = .address ∧ a.frame.function.addressed = true then
      if dominant then s.phaseTo g .body else s.attemptEnds g .noReply
    else s
  | none => s

/-- COMMAND_FRAME_SENT (R70): the frame has been sent whole; a reply or a contest is awaited, or the attempt ends SENT. -/
def State.frameSent (s : State) (g : Seg) : State :=
  match s.attempt g with
  | some a =>
    if a.phase = (if a.frame.function.addressed then .body else .address) then
      if a.frame.function = .callUnbound then s.phaseTo g .slots
      else if a.frame.function.expectsReply then s.phaseTo g .replyWait
      else s.attemptEnds g .sent
    else s
  | none => s

/-! ### Receiving a reply -/

/-- REPLY_WINDOW_TIMEOUT (R60): no start bit within the window; NO_REPLY. -/
def State.replyTimeout (s : State) (g : Seg) (n : Nat) : State :=
  if Config.window ≤ n ∧ s.inPhase g [.replyWait] = true then s.attemptEnds g .noReply else s

/-- Whether the attempt waits for the end of the dominant run of a malformed character (R53). -/
def State.openRun (s : State) (g : Seg) : Bool :=
  match s.attempt g with
  | some a => a.openRun
  | none => false

/-- CHARACTER_GAP_TIMEOUT (R60): too long a gap inside the reply; FRAMING. -/
def State.gapTimeout (s : State) (g : Seg) (n : Nat) : State :=
  if Config.characterGap ≤ n ∧ s.inPhase g [.reply] = true ∧ s.openRun g = false then s.attemptEnds g .framing else s

/-- What a reply character does to the attempt (R61). -/
inductive CharVerdict where
  | goesOn
  | fails
  | completes (o : LineOutcome)
  deriving DecidableEq, Repr

/-- The check of the reply character `d` with mark bit `mark`, after the characters `got`, in an attempt of frame `f` (R59,
R61). Its start and stop bits are well formed. -/
def checkReply (f : Frame) (got : List Byte) (mark : Bool) (d : Byte) : CharVerdict :=
  match got with
  | [] => if mark ∧ d = f.replyAddress then .goesOn else .fails
  | _ :: rest =>
    if mark then .fails
    else
      match rest with
      | [] => if d = 0 ∨ f.function.refuseAllowed then .goesOn else .fails
      | [status] => if d.toNat ≤ 32 ∧ (status ≠ 0 ∨ d = f.replyLength) then .goesOn else .fails
      | status :: len :: after =>
        if after.length = len.toNat + 1 then
          if crc (got.take (3 + len.toNat)) = word16 (got.getLastD 0) d then
            .completes (if status = 0 then .accept (after.take len.toNat) else .refuse status)
          else .fails
        else .goesOn

/-- REPLY_CHARACTER (R53, R61): an edge whose start bit reads recessive is no character; a dominant stop bit makes the
outcome wait on the dominant run; any other character is checked. -/
def State.replyChar (s : State) (g : Seg) (ch : LineChar) : State :=
  match s.attempt g with
  | some a =>
    if (a.phase = .replyWait ∨ a.phase = .reply) ∧ a.openRun = false ∧ ch.startDominant = true then
      if ch.stopRecessive then
        match checkReply a.frame a.received ch.mark ch.data with
        | .goesOn => s.updAttempt g fun a => { a with phase := .reply, received := a.received ++ [ch.data] }
        | .fails => s.attemptEnds g .framing
        | .completes o => s.attemptEnds g o
      else s.updAttempt g fun a => { a with phase := .reply, openRun := true }
    else s
  | none => s

/-- LINE_RETURNS_RECESSIVE (R53): the dominant run of a malformed character ends before it is a break; FRAMING. -/
def State.runEnds (s : State) (g : Seg) (run : Nat) : State :=
  if run < Config.breakTime ∧ s.inPhase g [.reply] = true ∧ s.openRun g = true then
    (s.updLine g (·.sawRecessive 0)).attemptEnds g .framing
  else s

/-- COLLISION (R62): a break while a reply is awaited or received ends the attempt COLLISION; in the class window it ends
the contest LOST (R69), wherever the dominant run that reaches 20 bit times there began, also in the slots (log 31). -/
def State.breakSeen (s : State) (g : Seg) (run : Nat) : State :=
  if Config.breakTime ≤ run then
    if s.inPhase g [.replyWait, .reply] then (s.updLine g (·.sawDominant run)).attemptEnds g .collision
    else if s.inPhase g [.classWait] then
      (s.updLine g fun l => { l.sawDominant run with attempt := none }).contestLost g
    else s
  else s

/-! ### Contests -/

/-- The attempt of a contest ends: the line interface has none in progress (R70). -/
def State.clearAttempt (s : State) (g : Seg) : State := s.updLine g fun l => { l with attempt := none }

/-- CONTEST_SLOTS_END (R69). -/
def State.slotsEnd (s : State) (g : Seg) (read : Ident) : State :=
  if s.inPhase g [.slots] then
    if read = BitVec.allOnes 48 then (s.clearAttempt g).noContender g
    else if read = 0 then (s.clearAttempt g).contestLost g
    else s.updAttempt g fun a => { a with phase := .classWait, slotsRead := read }
  else s

/-- CLASS_CHARACTER (R69): a well-formed data character wins the contest; a malformed one, or one with mark 1, loses it. -/
def State.classChar (s : State) (g : Seg) (ch : LineChar) : State :=
  match s.attempt g, (s.engine g).activity with
  | some a, some act =>
    if a.phase = .classWait ∧ ch.startDominant = true then
      if ch.stopRecessive = true ∧ ch.mark = false then (s.clearAttempt g).contestWon g act a.slotsRead ch.data
      else (s.clearAttempt g).contestLost g
    else s
  | _, _ => s

/-- CLASS_WINDOW_TIMEOUT (R69). -/
def State.classTimeout (s : State) (g : Seg) (n : Nat) : State :=
  if Config.window ≤ n ∧ s.inPhase g [.classWait] = true then (s.clearAttempt g).contestLost g else s

/-! ### The commands -/

/-- IDLE_GAP_ELAPSED (R57). -/
def execIdleGapElapsed (g : Seg) (run : Nat) (s : State) : Host.Outcome State Fault Refusal := .next (s.idleGap g run)

/-- STUCK (R58, R95). -/
def execStuck (g : Seg) (run : Nat) (s : State) : Host.Outcome State Fault Refusal := .next (s.stuckLine g run)

/-- CONTENTION (R63). -/
def execContention (g : Seg) (k : Nat) (s : State) : Host.Outcome State Fault Refusal := .next (s.contend g k)

/-- BREAK_RELEASE (R63). -/
def execBreakRelease (g : Seg) (run : Nat) (s : State) : Host.Outcome State Fault Refusal := .next (s.releaseBreak g run)

/-- ACKNOWLEDGE_SLOT (R55). -/
def execAcknowledgeSlot (g : Seg) (dominant : Bool) (s : State) : Host.Outcome State Fault Refusal :=
  .next (s.acknowledge g dominant)

/-- COMMAND_FRAME_SENT (R70). -/
def execCommandFrameSent (g : Seg) (s : State) : Host.Outcome State Fault Refusal := .next (s.frameSent g)

/-- REPLY_WINDOW_TIMEOUT (R60). -/
def execReplyWindowTimeout (g : Seg) (n : Nat) (s : State) : Host.Outcome State Fault Refusal := .next (s.replyTimeout g n)

/-- CHARACTER_GAP_TIMEOUT (R60). -/
def execCharacterGapTimeout (g : Seg) (n : Nat) (s : State) : Host.Outcome State Fault Refusal := .next (s.gapTimeout g n)

/-- REPLY_CHARACTER (R61). -/
def execReplyCharacter (g : Seg) (ch : LineChar) (s : State) : Host.Outcome State Fault Refusal := .next (s.replyChar g ch)

/-- COLLISION (R62). -/
def execCollision (g : Seg) (run : Nat) (s : State) : Host.Outcome State Fault Refusal := .next (s.breakSeen g run)

/-- CONTEST_SLOTS_END (R69). -/
def execContestSlotsEnd (g : Seg) (read : Ident) (s : State) : Host.Outcome State Fault Refusal := .next (s.slotsEnd g read)

/-- CLASS_CHARACTER (R69). -/
def execClassCharacter (g : Seg) (ch : LineChar) (s : State) : Host.Outcome State Fault Refusal := .next (s.classChar g ch)

/-- CLASS_WINDOW_TIMEOUT (R69). -/
def execClassWindowTimeout (g : Seg) (n : Nat) (s : State) : Host.Outcome State Fault Refusal := .next (s.classTimeout g n)

/-- LINE_RETURNS_RECESSIVE (R53). -/
def execLineReturnsRecessive (g : Seg) (run : Nat) (s : State) : Host.Outcome State Fault Refusal := .next (s.runEnds g run)

end Sys2Proof.Machine
end

