-- ==== Sys2Proof/Machine/Lookups.lean ====
section
/-! DEFINITION. The lookups of 01_the_node_directory.md, section 1.5, and DESCRIBE (R174). Each reads and changes nothing
but its own request slot. -/

namespace Sys2Proof.Machine

/-- The answer of a lookup: `f` on the body when it suits its kind, BAD_REQUEST otherwise (R21, R30). -/
def lookup {β : Type} (parse : List Byte → Option β) (f : State → PortId → β → Answer) (s : State) (p : PortId)
    (body : List Byte) : State × Answer :=
  match parse body with
  | some x => (s, f s p x)
  | none => (s, badRequest)

/-- The fitted segments as a segment set (R210). -/
def State.fittedSet (s : State) : Byte :=
  allSegments.foldl (fun acc g => if (s.segSetup g).fitted then acc ||| (1#8 <<< g.val) else acc) 0

/-- DESCRIBE's answer (R174, R213): part code 0xD612, revision 0x01, 128 entries. -/
def answerDescribe (s : State) (p : PortId) (_ : Unit) : Answer :=
  { status := .ok, generation := 0
    body := [0xD6, 0x12, 0x01, 128, s.fittedSet, boolByte (!s.setup.loaded), boolByte (p == .b)] }

/-- FIND_ID's answer (R22). It carries the generation of the entry that it names, as R21 and R22 give it, although the request
names no handle and R173 gives every such request a generation of 0 (DEDUCED, log 39). -/
def answerFindId (s : State) (_ : PortId) (x : Ident) : Answer :=
  match s.holder x with
  | some h =>
    { status := .ok, generation := (s.entry h).generation, body := [handleByte h, stateCode (s.entry h).state] }
  | none => Answer.bare .notFound 0

/-- FIND_ADDR's answer, by the kind of the map slot (R23), with the generation of the entry that it names (DEDUCED, log 39). -/
def answerFindAddr (s : State) (_ : PortId) (x : Seg × Byte) : Answer :=
  match s.mapSlot x.1 x.2 with
  | .held h =>
    { status := .ok, generation := (s.entry h).generation, body := [handleByte h, stateCode (s.entry h).state, 0] }
  | .reserved h =>
    { status := .ok, generation := (s.entry h).generation, body := [handleByte h, stateCode (s.entry h).state, 1] }
  | .joinHold | .empty => Answer.bare .notFound 0

/-- Whether an entry passes a LIST's filters (R24); a FREE entry has no segment and no class for this purpose. -/
def listMatches (q : ListBody) (e : Entry) : Bool :=
  q.states.getLsbD (stateCode e.state).toNat &&
    (if e.isFree then q.segment == none && q.cls == none
     else (q.segment == none || q.segment == some e.segment) && (q.cls == none || q.cls == some e.cls))

/-- The first 12 matching handles from the start handle on (R24). -/
def listHandles (s : State) (q : ListBody) : List Handle :=
  (allHandles.filter fun h => q.start ≤ h.val && listMatches q (s.entry h)).take Config.listMax

/-- The next-cursor (R24): the handle after the last one returned when 12 were collected, 128 otherwise. -/
def listCursor (hs : List Handle) : Byte :=
  if hs.length = Config.listMax then
    match hs.getLast? with
    | some h => byte (h.val + 1)
    | none => 128
  else 128

/-- One handle with its entry's state and generation (R213). -/
def State.handleTriple (s : State) (h : Handle) : List Byte :=
  [handleByte h, stateCode (s.entry h).state, (s.entry h).generation]

/-- LIST's answer (R24). -/
def answerList (s : State) (_ : PortId) (q : ListBody) : Answer :=
  let hs := listHandles s q
  { status := .ok, generation := 0, body := [byte hs.length, listCursor hs] ++ hs.flatMap s.handleTriple }

/-- The code of a prior state. -/
def priorCode (p : Prior) : Byte := stateCode (priorState p)

/-- Bit `k` of a presence byte. -/
def presenceBit (k : Nat) (b : Bool) : Byte := if b then 1#8 <<< k else 0

/-- The transient fields of an entry with their presence bits (R25, R214): presence bits 2 to 4, prior state, move target,
force. -/
def transientBytes : EntryState → Byte × Byte × Byte × Byte
  | .moving pr t => (0x0C, priorCode pr, t, 0)
  | .retiring pr force => (0x14, priorCode pr, 0, boolByte force)
  | .free | .seeded | .present | .absent | .conflict => (0, 0, 0, 0)

/-- The READ_ENTRY body (R214). -/
def entryBody (h : Handle) (e : Entry) : List Byte :=
  let (tp, prior, target, force) := transientBytes e.state
  [handleByte h, stateCode e.state] ++ identBytes e.identity ++
    [e.cls, byte e.segment.val, e.address, presenceBit 0 e.label.isSome ||| presenceBit 1 e.stride.isSome ||| tp] ++
    bytes16 (e.label.getD 0) ++
    [byte ((e.stride.map Stride.value).getD 0), byte ((e.stride.map Stride.counter).getD 0), byte e.silence, byte e.age,
     claimCode e.claim, watchCode e.watchA e.watchB, prior, target, force]

/-- READ_ENTRY's answer (R25). -/
def answerReadEntry (s : State) (_ : PortId) (b : Byte) : Answer :=
  match handleOf b with
  | some h => { status := .ok, generation := (s.entry h).generation, body := entryBody h (s.entry h) }
  | none => Answer.bare .badHandle 0

/-- DESCRIBE (R174). -/
def execDescribe (p : PortId) (s : State) : Host.Outcome State Fault Refusal :=
  .next (s.serve p .describe (lookup bodyNone answerDescribe))

/-- FIND_ID (R22). -/
def execFindId (p : PortId) (s : State) : Host.Outcome State Fault Refusal :=
  .next (s.serve p .findId (lookup bodyFindId answerFindId))

/-- FIND_ADDR (R23). -/
def execFindAddr (p : PortId) (s : State) : Host.Outcome State Fault Refusal :=
  .next (s.serve p .findAddr (lookup bodyFindAddr answerFindAddr))

/-- LIST (R24). -/
def execList (p : PortId) (s : State) : Host.Outcome State Fault Refusal :=
  .next (s.serve p .list (lookup bodyList answerList))

/-- READ_ENTRY (R25). -/
def execReadEntry (p : PortId) (s : State) : Host.Outcome State Fault Refusal :=
  .next (s.serve p .readEntry (lookup bodyByte answerReadEntry))

end Sys2Proof.Machine
end

