-- ==== Sys2Proof/Machine/NoticeRequests.lean ====
section
/-! DEFINITION. The notice requests of 09_notices_and_change_sets.md: GET_NOTICES, CLEAR_NOTICES, SET_NOTICE_MASK and
GET_CHANGES. -/

namespace Sys2Proof.Machine

/-- GET_NOTICES's answer (R183): the flags before the request itself becomes COMPLETED. R183 fixes only RESPONSE_READY so; that the
attention level is as before that completion too is the model's choice (DESIGN CHOICE, log 15). -/
def answerGetNotices (s : State) (p : PortId) (_ : Unit) : Answer :=
  { status := .ok, generation := 0
    body := noticeBytes (s.port p).flags ++ noticeBytes (s.port p).notices.mask ++
      [boolByte (s.attention p), byte (s.port p).notices.changeCount] }

/-- The flags of a port as they stand once the request being answered is COMPLETED, so that RESPONSE_READY is set
(R180, R184; log 15). -/
def PortState.flagsAfter (x : PortState) : BitVec 13 := x.flags ||| levelFlags true false

/-- The attention output once the request being answered is COMPLETED (R184, R185; log 15). -/
def State.attentionAfter (s : State) (p : PortId) : Bool :=
  !s.runState.isStarting && (s.port p).flagsAfter &&& (s.port p).notices.mask != 0

/-- CLEAR_NOTICES (R184): the named sticky flags are cleared; level flags in the set are not changed. -/
def serveClearNotices (s : State) (p : PortId) (body : List Byte) : State × Answer :=
  match bodyNoticeSet body with
  | none => (s, badRequest)
  | some m =>
    let t := s.updPort p fun x => { x with notices := { x.notices with sticky := x.notices.sticky &&& ~~~m } }
    (t, { status := .ok, generation := 0, body := noticeBytes (t.port p).flagsAfter ++ [boolByte (t.attentionAfter p)] })

/-- SET_NOTICE_MASK (R185): no flag changes and no wake signal is handed on. -/
def serveSetNoticeMask (s : State) (p : PortId) (body : List Byte) : State × Answer :=
  match bodyNoticeSet body with
  | none => (s, badRequest)
  | some m =>
    let t := s.updPort p fun x => { x with notices := { x.notices with mask := m } }
    (t, { status := .ok, generation := 0, body := noticeBytes m ++ [boolByte (t.attentionAfter p)] })

/-- The members of a change set with the lowest handles, up to 16 (R187). -/
def NoticeUnit.lowestChanged (u : NoticeUnit) : List Handle :=
  (allHandles.filter fun h => u.changed[h]).take Config.changesMax

/-- Handles taken out of a change set. -/
def NoticeUnit.removeChanged (u : NoticeUnit) (hs : List Handle) : NoticeUnit :=
  { u with changed := hs.foldl (fun (v : Vector Bool 128) (h : Handle) => v.set h false) u.changed }

/-- GET_CHANGES (R187). -/
def serveGetChanges (s : State) (p : PortId) (body : List Byte) : State × Answer :=
  match bodyNone body with
  | none => (s, badRequest)
  | some () =>
    let hs := (s.port p).notices.lowestChanged
    (s.updPort p fun x => { x with notices := x.notices.removeChanged hs },
     { status := .ok, generation := 0, body := hs.flatMap s.handleTriple })

/-- GET_NOTICES (R183). -/
def execGetNotices (p : PortId) (s : State) : Host.Outcome State Fault Refusal :=
  .next (s.serve p .getNotices (lookup bodyNone answerGetNotices))

/-- CLEAR_NOTICES (R184). -/
def execClearNotices (p : PortId) (s : State) : Host.Outcome State Fault Refusal :=
  .next (s.serve p .clearNotices serveClearNotices)

/-- SET_NOTICE_MASK (R185). -/
def execSetNoticeMask (p : PortId) (s : State) : Host.Outcome State Fault Refusal :=
  .next (s.serve p .setNoticeMask serveSetNoticeMask)

/-- GET_CHANGES (R187). -/
def execGetChanges (p : PortId) (s : State) : Host.Outcome State Fault Refusal :=
  .next (s.serve p .getChanges serveGetChanges)

end Sys2Proof.Machine
end

