-- ==== Sys2Proof/Machine/Picks.lean ====
section
/-! DEFINITION. The choice of work (R80 to R83): the resolution pick (R141), the poll turn (R106 to R108), the start and the
next contest of a pass (R122 to R124), and the head of the segment queue (R83, R122). -/

namespace Sys2Proof.Machine

/-- An engine's record of whether its last pick took a queued request (R80). -/
def State.record (s : State) (g : Seg) (took : Bool) : State := s.updEngine g fun e => { e with tookQueue := took }

/-! ### The poll turn -/

/-- The handles in the order a poll turn examines them: from the cursor, wrapping from 127 to 0, once round (R106). -/
def turnOrder (cursor : Handle) : List Handle := allHandles.map (fun k => cursor + k)

/-- The scan of a poll turn (R106): CONFLICT entries are appended to the resolution list, stride counters above 0 are lowered,
and the scan stops at the first entry it polls, whose counter it reloads. -/
def State.pollScan (s : State) (g : Seg) : List Handle → State × Option Handle
  | [] => (s, none)
  | h :: rest =>
    let e := s.entry h
    if e.segment = g then
      match e.state with
      | .conflict => (s.appendResolution g h).pollScan g rest
      | .seeded | .present | .absent =>
        match e.stride with
        | none => (s, some h)
        | some st =>
          if st.counter = 0 then (s.setEntry h { e with stride := some { st with counter := st.value - 1 } }, some h)
          else (s.setEntry h { e with stride := some { st with counter := st.counter - 1 } }).pollScan g rest
      | .free | .moving _ _ | .retiring _ _ => s.pollScan g rest
    else s.pollScan g rest

/-- A due poll (R80, R106): the flag is cleared and the turn is taken; the handle it polls, if any, with the state after. -/
def State.pollTurn (s : State) (g : Seg) : State × Option Handle :=
  let t := s.updEngine g fun e => { e with pollDue := false }
  t.pollScan g (turnOrder (s.engine g).cursor)

/-- The poll of entry `h` begins: the cursor moves past it, and its identity, segment and address are recorded (R105, R106). -/
def State.beginPoll (s : State) (g : Seg) (h : Handle) : State :=
  let e := s.entry h
  ((s.updEngine g fun x => { x with cursor := h + 1 }).begin g .transaction (.poll h e.identity e.segment e.address) none)

/-! ### Resolutions and contests -/

/-- The resolution of the head `h` of the list begins (R141, R142); the handle stays at the head. -/
def State.beginResolution (s : State) (g : Seg) (h : Handle) : State :=
  s.begin g .transaction (.resolveRelease h (s.entry h).address (s.entry h).identity) none

/-- A contest of the active pass begins (R124). -/
def State.beginContest (s : State) (g : Seg) : State := s.begin g .contest .callUnbound none

/-- Whether a starting pass sends UNPARK_ALL (R123): the parked count is above 0 and some entry is FREE. -/
def State.unparks (s : State) (g : Seg) : Bool := 0 < (s.engine g).parked && s.lowestFree.isSome

/-- A pass starts with counts 0 and the given attached list (R118, R122). -/
def State.startPass (s : State) (g : Seg) (attached : List (PortId × SlotIx)) : State :=
  s.updPass g fun _ => { noPass with active := true, attached := attached }

/-- Whether item 3 of the pick is available (R80, R124). -/
def State.contestAvailable (s : State) (g : Seg) : Bool :=
  let e := s.engine g
  (e.pass.active || e.discoveryDue) && s.runState == .run && !s.seeding && (e.queue.isEmpty || e.tookQueue)

/-- Item 3 of the pick: the next contest of the active pass, or a pass started by discovery-due, which clears the mark and
begins with UNPARK_ALL or with its first contest (R120, R123, R124). -/
def State.pickContest (s : State) (g : Seg) : State :=
  let t := (s.record g false).updEngine g fun e => { e with discoveryDue := false }
  if (s.engine g).pass.active then t.beginContest g
  else if s.unparks g then (t.startPass g []).begin g .transaction .unparkAll none
  else (t.startPass g []).beginContest g

/-! ### The queue head -/

/-- The slot of a queued request becomes ON_LINE (R83, R169). -/
def PortState.goOnLine (x : PortState) (i : SlotIx) : PortState :=
  { x with slots := x.slots.set i (match x.slots[i].request? with | some r => .onLine r | none => x.slots[i]) }

/-- The head of the queue leaves it, and its slot becomes ON_LINE (R83). -/
def State.takeHead (s : State) (g : Seg) (x : QueueItem) : State :=
  (s.updEngine g fun e => { e with queue := e.queue.tail }).updPort x.port (·.goOnLine x.slot)

/-- A DISCOVER taken from the queue (R122): answered QUIET in QUIETING, attached to the active pass, or the start of a
pass. -/
def State.pickDiscover (s : State) (g : Seg) (x : QueueItem) : State :=
  let t := (s.takeHead g x).record g true
  if s.runState = .run then
    if (s.engine g).pass.active then
      t.updPass g fun c => { c with attached := c.attached ++ [(x.port, x.slot)] }
    else
      let u := t.startPass g [(x.port, x.slot)]
      if s.unparks g then u.begin g .transaction .unparkAll none else u
  else t.finish x.port x.slot { status := .ok, generation := 0, body := discoverNothing .quiet }

/-- The activity that a queued request for entry `h` becomes at its pick, with the entry's address as it stands (R83, R87,
R88, R148, R155). -/
def LineReq.work (q : LineReq) (h : Handle) (e : Entry) : Work :=
  match q with
  | .nodeRead _ _ item len => .nodeRead h item len e.identity e.segment e.address
  | .nodeWrite _ _ item d => .nodeWrite h item d e.identity e.segment e.address
  | .move _ t _ => .move .one h e.address t e.identity
  | .retire _ force _ => .retire h e.address force
  | .broadcast _ item d => .broadcast item d
  | .discover _ => .callUnbound

/-- Item 4 of the pick: the head of the queue (R83). A request whose entry is FREE or has changed identity or segment is
answered STALE, nothing is sent, and the record of the last pick stays as it was before the pick (R80). -/
def State.pickQueue (s : State) (g : Seg) (x : QueueItem) : State :=
  match x.req, x.entry with
  | .discover _, _ => s.pickDiscover g x
  | .broadcast _ item d, _ =>
    ((s.takeHead g x).record g true).begin g .transaction (.broadcast item d) (some { port := x.port, slot := some x.slot })
  | q, some h =>
    let e := s.entry h
    let t := s.takeHead g x
    if e.isFree = true ∨ e.identity ≠ x.identity ∨ e.segment ≠ x.segment then t.finish x.port x.slot (s.refuse h .stale)
    else (t.record g true).begin g .transaction (q.work h e) (some { port := x.port, slot := some x.slot })
  | _, none => s

/-! ### The pick -/

/-- Items 3 and 4 of the pick, after items 1 and 2 have sent nothing (R80). A pick that finds nothing clears the record
(log 17). -/
def State.pickRest (s : State) (g : Seg) : State :=
  if s.contestAvailable g then s.pickContest g
  else
    match (s.engine g).queue, s.runState with
    | x :: _, .run | x :: _, .quieting => s.pickQueue g x
    | [], _ | _, .quiet | _, .starting _ => s.record g false

/-- Items 2 to 4 of the pick. -/
def State.pickPoll (s : State) (g : Seg) : State :=
  if (s.engine g).pollDue then
    match s.pollTurn g with
    | (t, some h) => (t.record g false).beginPoll g h
    | (t, none) => t.pickRest g
  else s.pickRest g

/-- The pick of an IDLE engine that is on (R80): in QUIETING and QUIET it first ends any active pass; then the head of the
resolution list while the seeding window is closed, a due poll, a contest, the head of the queue. -/
def State.pickWork (s : State) (g : Seg) : State :=
  let s := if s.runState = .run then s else s.endPass g .quiet
  match (s.engine g).resolution with
  | h :: _ => if s.seeding then s.pickPoll g else (s.record g false).beginResolution g h
  | [] => s.pickPoll g

/-- PICK (R80): an engine that is not IDLE or not on does not pick, and no engine picks in STARTING (R81; log 2). -/
def execPick (g : Seg) (s : State) : Host.Outcome State Fault Refusal :=
  .next
    (if s.runState.isStarting = false ∧ (s.engine g).state = .idle ∧ (s.engine g).settings.on = true then s.pickWork g
     else s)

end Sys2Proof.Machine
end

