-- ==== Sys2Proof/Machine/Restarts.lean ====
section
/-! DEFINITION. The restart controller (10_restart_seeding_and_quiet_operation.md): run states, RESET and the full restart,
the setup image (R194, R216, R217), RESTART, quiet operation and waking. -/

namespace Sys2Proof.Machine

/-! ### The clearing -/

/-- A full restart abandons an engine's activity and releases its line without a break (R71, R72, R98). -/
def Engine.abandoned (e : Engine) : Engine :=
  { e.cleared with state := .off, tookQueue := false, line := { e.line with attempt := none, driving := false } }

/-- An engine as CLEARING leaves it (R98, R104, R118, R192); the settings are not cleared here, and the line's measured level
and runs stay (log 32). -/
def Engine.emptied (e : Engine) : Engine :=
  { e.abandoned with
    queue := [], resolution := [], cursor := 0, pollDue := false, timer := none, expiries := 0, discoveryDue := false,
    pass := noPass, parked := 0, lastServed := .b }

/-- The slot that an exchange's response came from is freed; the copy goes on being sent (R162). -/
def Exchange.detached (x : Exchange) : Exchange := { x with slot := none }

/-- A port's slots freed without responses (R177, R197). -/
def PortState.freed (x : PortState) : PortState :=
  { x with
    slots := Vector.replicate 8 .free, waiting := [], completed := [], waitsFor := none
    exchange := x.exchange.map Exchange.detached }

/-- A port as CLEARING leaves it (R177, R188, R192). -/
def PortState.emptied (x : PortState) : PortState := { x.freed with previous := .none, notices := resetNotices }

/-- The clearing of R192, as one event, after which the phase is LOADING. -/
def State.clearing (s : State) : State :=
  { s with
    runState := .starting .loading
    entries := Vector.replicate 128 (freeEntry 1 false false)
    maps := Vector.replicate 4 (Vector.replicate 200 .empty)
    seeding := false
    portA := s.portA.emptied
    portB := s.portB.emptied
    engines := s.engines.map Engine.emptied }

/-! ### RESET and power -/

/-- A RESET taken, or power applied (R190): STARTING in SETTLING, every line released, every activity abandoned; the rest of
the state stands as it was (R189), but that every engine becomes OFF here and not only at CLEARING (log 20). -/
def State.takeReset (s : State) : State :=
  { s with
    runState := .starting (.settling false), prescaler := s.prescaler.stopped, engines := s.engines.map Engine.abandoned }

/-- RESET_TAKEN after a pulse of `width` microseconds (R190): ignored below 16, taken from 64 on; in between the filter's
choice is a free value (log 7). -/
def State.resetPulse (s : State) (width : Nat) : State :=
  if width < Config.pulseIgnored then s
  else if Config.pulseLong ≤ width then s.takeReset
  else
    let t := { s with freeCount := s.freeCount + 1 }
    if Config.pulseTaken s.freeCount then t.takeReset else t

/-- RESET_RELEASED (R191): in SETTLING the count starts. -/
def State.releaseReset (s : State) : State :=
  match s.runState with
  | .starting (.settling _) => { s with runState := .starting (.settling true) }
  | .starting .clearing | .starting .loading | .run | .quieting | .quiet => s

/-- SETTLING_COMPLETE (R191): the prescaler starts from its starting position and the clearing is taken. -/
def State.settled (s : State) (cycles : Nat) : State :=
  if Config.settlingCycles ≤ cycles ∧ s.runState = .starting (.settling true) then
    { s with prescaler := .start }.clearing
  else s

/-! ### The setup read -/

/-- The read command (R193). -/
def setupCommand : Byte := 0xC6

/-- What the setup read sends on the setup data line at its clock `k`, counted from 1: the read command, most significant bit
first, in the first 8 clocks; from the 9th on it releases the line (R193). -/
def setupDrive (k : Nat) : Option Bool := if 1 ≤ k ∧ k ≤ 8 then some (setupCommand.getLsbD (8 - k)) else none

/-- What the part drives on the setup data line, `k` being the clock of the read that it has come to: only in LOADING anything at
all. In every other phase of STARTING the line is released (R189), and so it is out of STARTING (log 24). -/
def State.setupData (s : State) (k : Nat) : Option Bool := if s.runState.isLoading then setupDrive k else none

/-- The clocks of a whole read: 9 when the memory does not answer, 153 when it does (R193). -/
def setupClocks (answered : Bool) : Nat := if answered then 8 + 1 + Config.imageBits else 8 + 1

/-- The 18 bytes of 144 bits, each byte most significant bit first, in order from the first (R193). -/
def imageOfBits (bits : List Bool) : Image := Vector.ofFn fun k => (bytesOfBits bits).getD k.val 0

/-- What the levels read off the setup data line give, from the 9th clock on (R193): a high answer bit ends the read at once
with no image; a low one is followed by the image's 144 bits. Any other levels are no whole read (log 24). -/
def setupRead (line : List Bool) : Option (Option Image) :=
  match line with
  | [true] => some none
  | false :: bits => if bits.length = Config.imageBits then some (some (imageOfBits bits)) else none
  | _ => none

/-! ### The setup image -/

/-- The intake mode of a coded bit. -/
def modeOf (portAFirst : Bool) : IntakeMode := if portAFirst then .portAFirst else .roundRobin

/-- Byte `k` of the image. -/
def imageByte (m : Image) (k : Nat) : Byte := m.toList.getD k 0

/-- The image's contents for segment `g` (R216): the fitted bit, the three bytes of the segment, the permit bits. An unfitted
segment's bytes are not used: no pool, rate code 0, and its mode's reset value is open (R194; log 8). -/
def imageSegment (m : Image) (g : Seg) : SegSetup :=
  let fitted := (imageByte m 2).getLsbD g.val
  let rm := imageByte m (5 + 3 * g.val)
  { fitted := fitted
    poolLow := if fitted then imageByte m (3 + 3 * g.val) else 0
    poolHigh := if fitted then imageByte m (4 + 3 * g.val) else 0
    rate := if fitted then (rm.extractLsb' 0 3).toNat else 0
    mode := modeOf (if fitted then rm.getLsbD 4 else Config.unfittedPortAFirst g)
    permitA := (imageByte m 15).getLsbD g.val
    permitB := (imageByte m 15).getLsbD (4 + g.val) }

/-- Whether a segment's pool and rate code lie in their ranges; an unfitted segment is not judged (R194, R217). -/
def SegSetup.inRange (x : SegSetup) : Bool :=
  !x.fitted || (1 ≤ x.poolLow.toNat && x.poolLow.toNat ≤ x.poolHigh.toNat && x.poolHigh.toNat ≤ 200 && x.rate ≤ 5)

/-- The segments of an image. -/
def imageSegments (m : Image) : Vector SegSetup 4 :=
  #v[imageSegment m 0, imageSegment m 1, imageSegment m 2, imageSegment m 3]

/-- Whether an image is accepted (R194): signature, checksum, and the ranges of fitted segments. -/
def imageAccepted (m : Image) : Bool :=
  word16 (imageByte m 0) (imageByte m 1) == 0x6B3D &&
    crc (m.toList.take 16) == word16 (imageByte m 16) (imageByte m 17) && (imageSegments m).all SegSetup.inRange

/-- The fixed setup that the setup read gives (R194): the image's contents when the memory answered and the image is
accepted, the defaults otherwise. -/
def setupOf (image : Option Image) : Setup :=
  match image with
  | some m => if imageAccepted m then { segments := imageSegments m, loaded := true } else defaultSetup
  | none => defaultSetup

/-- An engine as the event that enters RUN leaves it (R71, R73, R98, R101, R195). Both runs of the line start at 0; its level
stays as last measured, for no rule gives it (log 32). -/
def Engine.started (e : Engine) (x : SegSetup) : Engine :=
  { e with
    settings := resetSettings x.fitted x.mode
    state := if x.fitted then .idle else .off
    timer := if x.fitted then some 100 else none
    line := { e.line with recessiveRun := 0, dominantRun := 0 } }

/-- The entry to RUN (R195): the fixed setup is written and the part enters RUN with the seeding window open. -/
def State.enterRun (s : State) (image : Option Image) : State :=
  if s.runState = .starting .loading then
    let x := setupOf image
    let t :=
      { s with
        runState := .run
        setup := x
        seeding := true
        engines := s.engines.zipWith Engine.started x.segments }
    let t := t.raise .restarted
    if x.loaded then t else t.raise .setupDefaulted
  else s

/-- The end of the setup read (R193, R195): a whole read is judged and the part enters RUN. -/
def State.readEnds (s : State) (line : List Bool) : State :=
  match setupRead line with
  | some image => s.enterRun image
  | none => s

/-! ### The retain restart -/

/-- An entry after a retain restart (R27): PRESENT, CONFLICT, MOVING and RETIRING become SEEDED, SEEDED stays, both with
silence 0; ABSENT and FREE stay as they are. -/
def Entry.retained (e : Entry) : Entry :=
  match e.state with
  | .present | .conflict | .moving _ _ | .retiring _ _ | .seeded => { e with state := .seeded, silence := 0, age := 0 }
  | .absent | .free => e

/-- A map slot after a retain restart (R27): only HELD is kept. -/
def MapSlot.retained : MapSlot → MapSlot
  | .held h => .held h
  | .reserved _ | .joinHold | .empty => .empty

/-- A line after a retain restart (R71, R197): an attempt from ADDRESS onwards is cut off with the part's own break. R71 drives it
from the next bit time, and no rule gives the filtered level and the runs in the restart's event or until the break has
passed the filter: they stay as they stand (DESIGN CHOICE, log 29). -/
def Line.cutOff (l : Line) : Line :=
  match l.attempt with
  | some a => if a.begun then { l with attempt := none, driving := true } else { l with attempt := none }
  | none => l

/-- The state of an engine after a retain restart (R72, R99, R197). -/
def Engine.stateRetained (e : Engine) : EngineState :=
  match e.state with
  | .transaction | .contest => if e.settings.on then .idle else .off
  | .off => .off
  | .idle => .idle
  | .fault => .fault

/-- The engine of segment `g` after a retain restart (R99, R104, R118, R197). -/
def Engine.retained (g : Seg) (e : Engine) : Engine :=
  { e with
    state := e.stateRetained
    queue := [], resolution := [], pass := noPass, pollDue := false, discoveryDue := false, expiries := 0
    tookQueue := false, offTaken := false, activity := none
    line := if e.stateRetained = .off then e.line.cutOff.switchedOff g else e.line.cutOff }

/-- One entry of the retain restart, with its generation and its watchers (R12, R27). -/
def State.retainEntry (s : State) (h : Handle) : State := s.change h (s.entry h).retained

/-- RESTART(RETAIN), as one event (R197). The run state becomes RUN, as R189 and R197 give it, also from QUIETING, although the
table of R177 leaves the run state of the status byte unchanged (DEDUCED, log 38). -/
def State.retainRestart (s : State) : State :=
  let t :=
    { s with
      runState := .run
      maps := s.maps.map (·.map MapSlot.retained)
      seeding := false
      portA := s.portA.freed
      portB := s.portB.freed
      engines := Vector.ofFn fun g => (s.engine g).retained g }
  (allHandles.foldl State.retainEntry t).raise .restarted

/-- RESTART(FULL) (R196): every line released, every activity abandoned, and the clearing taken in the same event. -/
def State.fullRestart (s : State) : State := s.clearing

/-- The dispatch of a RESTART of the given kind. A RESTART that names neither kind is answered BAD_REQUEST by either row
(log 10); one that names the other kind is that row's. -/
def State.dispatchRestart (s : State) (p : PortId) (k : RestartKind) (f : State → State) : State :=
  s.dispatch p .restart fun i r =>
    match bodyRestart r.body with
    | none => s.finish p i badRequest
    | some k' => if k' = k then f s else s

/-! ### Quiet operation -/

/-- QUIET (R203). -/
def serveQuiet (s : State) (_ : PortId) (body : List Byte) : State × Answer :=
  match bodyNone body with
  | none => (s, badRequest)
  | some () =>
    if s.runState = .run ∧ s.seeding = false then ({ s with runState := .quieting }, Answer.bare .ok 0)
    else (s, Answer.bare .wrongState 0)

/-- The dispatch of a WAKE (R206): in QUIETING it returns the run state to RUN and records QUIETING (log 11). One with a body
is answered BAD_REQUEST and leaves the run state as it is, also in QUIETING (log 35). -/
def State.dispatchWake (s : State) (p : PortId) : State :=
  s.dispatch p .wake fun i r =>
    match bodyNone r.body with
    | none => s.finish p i badRequest
    | some () =>
      let woke := match s.runState with | .quieting => .quieting | .quiet => .quiet | .run | .starting _ => r.woke
      s.wake.finish p i { status := .ok, generation := 0, body := [wokeCode woke] }

/-- Whether an engine carries an orphaned request (R204). -/
def Engine.orphaned (e : Engine) : Bool :=
  match e.activity with
  | some { work := _, owner := some o, retries := _ } => o.slot.isNone
  | some { work := _, owner := none, retries := _ } | none => false

/-- The drain condition (R204). -/
def State.drained (s : State) : Bool :=
  !s.portA.slots.any Slot.isBusy && !s.portB.slots.any Slot.isBusy && s.engines.all (fun e => e.queue.isEmpty && !e.orphaned)

/-- DRAIN_COMPLETE (R204). -/
def State.drain (s : State) : State :=
  if s.runState = .quieting ∧ s.drained = true then { s with runState := .quiet } else s

/-! ### The commands -/

/-- RESTART_FULL (R196). -/
def execRestartFull (p : PortId) (s : State) : Host.Outcome State Fault Refusal :=
  .next (s.dispatchRestart p .full State.fullRestart)

/-- RESTART_RETAIN (R197). -/
def execRestartRetain (p : PortId) (s : State) : Host.Outcome State Fault Refusal :=
  .next (s.dispatchRestart p .retain State.retainRestart)

/-- QUIET (R203). -/
def execQuiet (p : PortId) (s : State) : Host.Outcome State Fault Refusal := .next (s.serve p .quiet serveQuiet)

/-- WAKE (R206). -/
def execWake (p : PortId) (s : State) : Host.Outcome State Fault Refusal := .next (s.dispatchWake p)

/-- DRAIN_COMPLETE (R204). -/
def execDrainComplete (s : State) : Host.Outcome State Fault Refusal := .next s.drain

/-- RESET_TAKEN (R190). -/
def execResetTaken (width : Nat) (s : State) : Host.Outcome State Fault Refusal := .next (s.resetPulse width)

/-- POWER_APPLIED (R190). -/
def execPowerApplied (s : State) : Host.Outcome State Fault Refusal := .next s.takeReset

/-- RESET_RELEASED (R191). -/
def execResetReleased (s : State) : Host.Outcome State Fault Refusal := .next s.releaseReset

/-- SETTLING_COMPLETE (R191, R192). -/
def execSettlingComplete (cycles : Nat) (s : State) : Host.Outcome State Fault Refusal := .next (s.settled cycles)

/-- SETUP_READ_END (R194, R195). -/
def execSetupReadEnd (line : List Bool) (s : State) : Host.Outcome State Fault Refusal := .next (s.readEnds line)

end Sys2Proof.Machine
end

