-- ==== Sys2Proof/Machine/Segments.lean ====
section
/-! DEFINITION. The settings of a segment and its poll timer: SET_SEGMENT with switch-off, switch-on and the lowering of T
(R74, R91, R93, R114), GET_SEGMENT (R75), and POLL_TIMER_EXPIRY with recovery from FAULT (R97, R101 to R104). -/

namespace Sys2Proof.Machine

/-! ### SET_SEGMENT -/

/-- A lowering of T (R114): every SEEDED or PRESENT entry of the segment whose silence has reached T becomes ABSENT. -/
def State.lowerEntry (g : Seg) (t : Nat) (s : State) (h : Handle) : State :=
  let e := s.entry h
  if e.segment = g ∧ (e.state = .seeded ∨ e.state = .present) ∧ t ≤ e.silence then
    s.change h { e with state := .absent, age := 0 }
  else s

/-- Whether a lowering of T makes entry `h` ABSENT. -/
def State.loweredBy (s : State) (g : Seg) (t : Nat) (h : Handle) : Bool :=
  let e := s.entry h
  e.segment = g && (e.state = .seeded || e.state = .present) && t ≤ e.silence

/-- The threshold applied to a segment, with the ABSENT notice once for the event (R114). -/
def State.lowerThreshold (s : State) (g : Seg) (t : Nat) : State :=
  let u := allHandles.foldl (State.lowerEntry g t) s
  if allHandles.any (s.loweredBy g t) then u.raise .absent else u

/-- The switch-off of a segment (R91): an IDLE engine or one in FAULT becomes OFF at once, one with an activity goes on with it
and records the switch-off (R92). A break of the part's own after a retain restart goes on past it or not, a free value (log
29). -/
def State.switchOff (s : State) (g : Seg) : State :=
  let t := (s.flushQueue g .segmentOff .off id).updEngine g fun e => { e with pollDue := false }
  match (s.engine g).state with
  | .idle | .fault =>
    (t.endPass g .off).updEngine g fun e => { e with state := .off, tookQueue := false, line := e.line.switchedOff g }
  | .transaction | .contest => t.updEngine g fun e => { e with offTaken := true }
  | .off => t

/-- The settings written (R74); a discovery setting of 0 returns the expiry count to 0 (R104). -/
def Engine.write (e : Engine) (x : Settings) : Engine :=
  { e with settings := x, expiries := if x.discovery = 0 then 0 else e.expiries }

/-- The effect of a SET_SEGMENT that passes its checks (R74): the settings are written, T's lowering applies, then the
switch-off or the switch-on. -/
def State.applySettings (s : State) (g : Seg) (x : Settings) : State :=
  let old := s.engine g
  let t := s.updEngine g (·.write x)
  let t := if x.threshold < old.settings.threshold then t.lowerThreshold g x.threshold else t
  if x.on then (if old.state = .off then t.updEngine g fun e => { e with state := .idle } else t)
  else if old.settings.on ∨ old.state = .fault then t.switchOff g
  else t

/-- The eight settings as bytes, in SET_SEGMENT order (R210, R213). -/
def Settings.bytes (x : Settings) : List Byte :=
  [boolByte x.on, byte x.period, byte x.multiplier, byte x.threshold, byte x.grace, byte x.retries, byte x.discovery,
   modeCode x.mode]

/-- SET_SEGMENT (R74). -/
def serveSetSegment (s : State) (p : PortId) (body : List Byte) : State × Answer :=
  match bodySetSegment body with
  | none => (s, badRequest)
  | some (g, x) =>
    if s.permits p g = false ∨ (s.segSetup g).fitted = false then (s, Answer.bare .notPermitted 0)
    else
      let t := s.applySettings g x
      (t, { status := .ok, generation := 0, body := (t.engine g).settings.bytes ++ [engineCode (t.engine g).state] })

/-! ### GET_SEGMENT -/

/-- Whether a segment is off but still finishing its last activity (R75). -/
def Engine.offPending (e : Engine) : Bool := !e.settings.on && (e.state == .transaction || e.state == .contest)

/-- The GET_SEGMENT body of a fitted segment (R75, R213). -/
def segmentBody (e : Engine) (x : SegSetup) : List Byte :=
  [1, engineCode e.state, boolByte e.offPending] ++ e.settings.bytes ++
    [x.poolLow, x.poolHigh, byte x.rate, boolByte x.permitA, boolByte x.permitB, byte e.queue.length,
     byte e.resolution.length, boolByte e.pass.active, byte e.pass.contests, byte e.parked, 0]

/-- The GET_SEGMENT body of an unfitted segment: OFF, the settings, pool bytes, rate code and counts 0 (R75, R213). -/
def unfittedBody (e : Engine) (x : SegSetup) : List Byte :=
  [0, engineCode .off, 0] ++ e.settings.bytes ++ [0, 0, 0, boolByte x.permitA, boolByte x.permitB, 0, 0, 0, 0, 0, 0]

/-- GET_SEGMENT (R75). -/
def serveGetSegment (s : State) (_ : PortId) (body : List Byte) : State × Answer :=
  match bodySegment body with
  | none => (s, badRequest)
  | some g =>
    let x := s.segSetup g
    (s, { status := .ok, generation := 0
          body := if x.fitted then segmentBody (s.engine g) x else unfittedBody (s.engine g) x })

/-! ### The poll timer -/

/-- The period of a poll period code, in milliseconds (R101). -/
def periodMs : Nat → Nat
  | 0 => 10 | 1 => 20 | 2 => 50 | 3 => 100 | 4 => 200 | 5 => 500 | 6 => 1000 | _ => 2000

/-- The factor of a quiet multiplier code (R101). -/
def multiplierFactor : Nat → Nat
  | 0 => 4 | 1 => 16 | 2 => 64 | _ => 256

/-- The length of a period that starts now (R101). -/
def State.periodLength (s : State) (g : Seg) : Nat :=
  let x := (s.engine g).settings
  if s.runState = .quiet then periodMs x.period * multiplierFactor x.multiplier else periodMs x.period

/-- A counted expiry (R104): the count grows, and when it reaches N it returns to 0 and discovery-due is set. -/
def Engine.countExpiry (e : Engine) : Engine :=
  if e.settings.discovery = 0 then { e with expiries := 0 }
  else if e.settings.discovery ≤ e.expiries + 1 then { e with expiries := 0, discoveryDue := true }
  else { e with expiries := e.expiries + 1 }

/-- What an expiry does to poll-due and the expiry count of an engine that is not in FAULT (R102). -/
def State.expire (s : State) (g : Seg) : State :=
  match (s.engine g).state with
  | .idle | .transaction | .contest =>
    if s.seeding then s
    else
      let t := s.updEngine g fun e => { e with pollDue := true }
      if s.runState = .run then t.updEngine g Engine.countExpiry else t
  | .off | .fault => s

/-- The line's recessive run as measured at an expiry (log 5). -/
def Line.measured (l : Line) (run : Nat) : Line :=
  if run = 0 then { l with recessiveRun := 0 } else l.sawRecessive run

/-- Recovery from FAULT at an expiry (R97): with a recessive run of 64 bit times or more the engine becomes IDLE, or OFF when
its setting is off, and SEG_RECOVERED is raised. -/
def State.recover (s : State) (g : Seg) : State :=
  if (s.engine g).state = .fault ∧ Config.stuckTime ≤ (s.engine g).line.recessiveRun then
    (s.updEngine g fun e => { e with state := if e.settings.on then .idle else .off }).raise .segRecovered
  else s

/-- Whether the timer has counted its whole period, `ticks` ticks after the period's start (R101, R208). A stopped timer has
none to count. -/
def Engine.periodOver (e : Engine) (ticks : Nat) : Bool :=
  match e.timer with
  | some n => n ≤ ticks
  | none => false

/-- POLL_TIMER_EXPIRY (R97, R101, R102): recovery first, then the expiry's marks, then the next period (log 16). A stopped
timer, or one whose period is not over, does not expire (log 2). -/
def State.timerExpires (s : State) (g : Seg) (count : PollCount) : State :=
  if s.runState.isStarting = false ∧ (s.engine g).periodOver count.ticks = true then
    let t := ((s.updLine g (·.measured count.run)).recover g).expire g
    t.updEngine g fun e => { e with timer := some (t.periodLength g) }
  else s

/-- SET_SEGMENT (R74). -/
def execSetSegment (p : PortId) (s : State) : Host.Outcome State Fault Refusal := .next (s.serve p .setSegment serveSetSegment)

/-- GET_SEGMENT (R75). -/
def execGetSegment (p : PortId) (s : State) : Host.Outcome State Fault Refusal := .next (s.serve p .getSegment serveGetSegment)

/-- POLL_TIMER_EXPIRY (R102). -/
def execPollTimerExpiry (g : Seg) (count : PollCount) (s : State) : Host.Outcome State Fault Refusal :=
  .next (s.timerExpires g count)

end Sys2Proof.Machine
end

