-- ==== Sys2Proof/Machine/Dispatch.lean ====
section
/-! DEFINITION. The effect of each command on everything but the queue: one arm for each constructor of Instr, each a call
of that command's own meaning. -/

namespace Sys2Proof.Machine

/-- The effect of one command. -/
def exec (i : Instr) (s : State) : Host.Outcome State Fault Refusal :=
  match i with
  | .exchangeStart p => Sys2Proof.Machine.execExchangeStart p s
  | .exchangeEnd p sent => Sys2Proof.Machine.execExchangeEnd p sent s
  | .describe p => Sys2Proof.Machine.execDescribe p s
  | .getNotices p => Sys2Proof.Machine.execGetNotices p s
  | .clearNotices p => Sys2Proof.Machine.execClearNotices p s
  | .setNoticeMask p => Sys2Proof.Machine.execSetNoticeMask p s
  | .getChanges p => Sys2Proof.Machine.execGetChanges p s
  | .restartFull p => Sys2Proof.Machine.execRestartFull p s
  | .restartRetain p => Sys2Proof.Machine.execRestartRetain p s
  | .quiet p => Sys2Proof.Machine.execQuiet p s
  | .wake p => Sys2Proof.Machine.execWake p s
  | .seed p => Sys2Proof.Machine.execSeed p s
  | .seedEnd p => Sys2Proof.Machine.execSeedEnd p s
  | .findId p => Sys2Proof.Machine.execFindId p s
  | .findAddr p => Sys2Proof.Machine.execFindAddr p s
  | .list p => Sys2Proof.Machine.execList p s
  | .readEntry p => Sys2Proof.Machine.execReadEntry p s
  | .setLabel p => Sys2Proof.Machine.execSetLabel p s
  | .setStride p => Sys2Proof.Machine.execSetStride p s
  | .claim p => Sys2Proof.Machine.execClaim p s
  | .unclaim p => Sys2Proof.Machine.execUnclaim p s
  | .watch p => Sys2Proof.Machine.execWatch p s
  | .unwatch p => Sys2Proof.Machine.execUnwatch p s
  | .setSegment p => Sys2Proof.Machine.execSetSegment p s
  | .getSegment p => Sys2Proof.Machine.execGetSegment p s
  | .nodeRead p => Sys2Proof.Machine.execNodeRead p s
  | .nodeWrite p => Sys2Proof.Machine.execNodeWrite p s
  | .broadcast p => Sys2Proof.Machine.execBroadcast p s
  | .discover p => Sys2Proof.Machine.execDiscover p s
  | .move p => Sys2Proof.Machine.execMove p s
  | .retire p => Sys2Proof.Machine.execRetire p s
  | .intakeAdmission g => Sys2Proof.Machine.execIntakeAdmission g s
  | .pick g => Sys2Proof.Machine.execPick g s
  | .idleGapElapsed g run => Sys2Proof.Machine.execIdleGapElapsed g run s
  | .stuck g run => Sys2Proof.Machine.execStuck g run s
  | .contention g bit => Sys2Proof.Machine.execContention g bit s
  | .breakRelease g run => Sys2Proof.Machine.execBreakRelease g run s
  | .acknowledgeSlot g dominant => Sys2Proof.Machine.execAcknowledgeSlot g dominant s
  | .commandFrameSent g => Sys2Proof.Machine.execCommandFrameSent g s
  | .replyWindowTimeout g elapsed => Sys2Proof.Machine.execReplyWindowTimeout g elapsed s
  | .characterGapTimeout g elapsed => Sys2Proof.Machine.execCharacterGapTimeout g elapsed s
  | .replyCharacter g ch => Sys2Proof.Machine.execReplyCharacter g ch s
  | .collision g run => Sys2Proof.Machine.execCollision g run s
  | .contestSlotsEnd g read => Sys2Proof.Machine.execContestSlotsEnd g read s
  | .classCharacter g ch => Sys2Proof.Machine.execClassCharacter g ch s
  | .classWindowTimeout g elapsed => Sys2Proof.Machine.execClassWindowTimeout g elapsed s
  | .pollTimerExpiry g count => Sys2Proof.Machine.execPollTimerExpiry g count s
  | .drainComplete => Sys2Proof.Machine.execDrainComplete s
  | .resetTaken width => Sys2Proof.Machine.execResetTaken width s
  | .powerApplied => Sys2Proof.Machine.execPowerApplied s
  | .resetReleased => Sys2Proof.Machine.execResetReleased s
  | .settlingComplete cycles => Sys2Proof.Machine.execSettlingComplete cycles s
  | .setupReadEnd line => Sys2Proof.Machine.execSetupReadEnd line s
  | .lineReturnsRecessive g run => Sys2Proof.Machine.execLineReturnsRecessive g run s

end Sys2Proof.Machine
end

