-- ==== Sys2Proof/Safety.lean ====
section
/-! DEFINITION. What the rules say of every state of the part: one named property for each rule that bounds or ties together
registers. Each is a claim that every step keeps it; none of them is checked by the machine. -/

namespace Sys2Proof.Machine

/-! ### Entries -/

/-- A generation is never 0 (R12). -/
def State.generationsRun (s : State) : Prop := ∀ h : Handle, (s.entry h).generation ≠ 0

/-- A FREE entry holds the values of R13; only its generation and watch set are its own. -/
def State.freeEntriesBare (s : State) : Prop :=
  ∀ h : Handle, (s.entry h).state = .free →
    s.entry h = freeEntry (s.entry h).generation (s.entry h).watchA (s.entry h).watchB

/-- Silence, absent age, poll stride and stride counter lie in their ranges (R1, R6, R7, R8). -/
def Entry.countsInRange (e : Entry) : Prop :=
  e.silence ≤ 7 ∧ e.age ≤ 15 ∧ ∀ st ∈ e.stride, 2 ≤ st.value ∧ st.value ≤ 15 ∧ st.counter < st.value

/-- Every entry's counts lie in their ranges. -/
def State.countsInRange (s : State) : Prop := ∀ h : Handle, (s.entry h).countsInRange

/-- The states in which an absent age above 0 can stand (R8): ABSENT, and RETIRING with prior state ABSENT. -/
def EntryState.keepsAge : EntryState → Bool
  | .absent | .retiring .absent _ => true
  | .free | .seeded | .present | .conflict | .moving _ _ | .retiring .seeded _ | .retiring .present _
  | .retiring .conflict _ => false

/-- The absent age is 0 in every state that does not keep it (R8). -/
def State.agesWhileAbsent (s : State) : Prop :=
  ∀ h : Handle, (s.entry h).state.keepsAge = false → (s.entry h).age = 0

/-- No two non-FREE entries hold the same identity (R2). -/
def State.identitiesDiffer (s : State) : Prop :=
  ∀ h k : Handle, (s.entry h).isFree = false → (s.entry k).isFree = false → (s.entry h).identity = (s.entry k).identity → h = k

/-! ### Engines -/

/-- No engine carries an activity, and no line interface an attempt, out of TRANSACTION and CONTEST or in STARTING; an
attempt sends its activity's frame, and only a CALL_UNBOUND is followed by contest slots (R70, R72, R81). -/
def Engine.sound (e : Engine) : Prop :=
  (e.state ≠ .transaction → e.state ≠ .contest → e.activity = none) ∧
    ∀ a ∈ e.line.attempt, ∃ w ∈ e.activity, a.frame = w.work.frame ∧
      (a.phase = .slots ∨ a.phase = .classWait → w.work = .callUnbound)

/-- Every engine is sound, and in STARTING none carries an activity. -/
def State.enginesSound (s : State) : Prop :=
  ∀ g : Seg, (s.engine g).sound ∧ (s.runState.isStarting = true → (s.engine g).activity = none)

/-- No segment queue holds more than 8 requests (R77). -/
def State.queuesBounded (s : State) : Prop := ∀ g : Seg, (s.engine g).queue.length ≤ Config.queuePlaces

/-- No resolution list holds a handle twice (R140). -/
def State.resolutionsDistinct (s : State) : Prop := ∀ g : Seg, (s.engine g).resolution.Nodup

/-- The threshold T lies in 1 to 7, every SEEDED or PRESENT entry's silence is below its segment's T, no engine works
in STARTING, and LOADING finds every entry FREE (R113, with R26, R73 and R71 for the states that lead to RUN). -/
def State.silencesBelowThreshold (s : State) : Prop :=
  (∀ g : Seg, 1 ≤ s.threshold g ∧ s.threshold g ≤ 7) ∧
    (∀ h : Handle, (s.entry h).state = .seeded ∨ (s.entry h).state = .present →
      (s.entry h).silence < s.threshold (s.entry h).segment) ∧
    (s.runState.isStarting = true → ∀ g : Seg, (s.engine g).activity = none) ∧
    (s.runState = .starting .loading → ∀ h : Handle, (s.entry h).state = .free)

/-! ### Address maps -/

/-- The address whose JOIN_HOLD an activity holds: that of an ASSIGN of a new join or a transfer (R17). -/
def Work.holding : Work → Option Byte
  | .assign .newJoin _ _ a | .assign .transfer _ _ a => some a
  | .assign (.rejoin _) _ _ _ | .nodeRead _ _ _ _ _ _ | .nodeWrite _ _ _ _ _ _ | .broadcast _ _ | .poll _ _ _ _
  | .resolveRelease _ _ _ | .resolvePresence _ _ _ | .move _ _ _ _ _ | .retire _ _ _ | .unparkAll | .callUnbound
  | .releaseStray _ _ | .park _ => none

/-- The address whose JOIN_HOLD an engine's activity holds. -/
def Engine.holding (e : Engine) : Option Byte := e.activity.bind fun a => a.work.holding

/-- Entries and maps agree (R15): a map slot is HELD(h) exactly when entry h is non-FREE on that segment with that address,
and RESERVED(h) exactly when entry h is MOVING with that target; addresses and targets are line addresses (R1); a JOIN_HOLD
stands exactly while an ASSIGN of that address is in progress (R17), but that SETTLING leaves what a RESET cut off standing
(R189). -/
def State.mapsAgree (s : State) : Prop :=
  (∀ h : Handle, (s.entry h).isFree = false → isAddress (s.entry h).address = true) ∧
    (∀ (h : Handle) (p : Prior) (t : Byte), (s.entry h).state = .moving p t → isAddress t = true) ∧
    (∀ (g : Seg) (a : Byte), isAddress a = true →
      (∀ h : Handle,
        (s.mapSlot g a = .held h ↔ (s.entry h).isFree = false ∧ (s.entry h).segment = g ∧ (s.entry h).address = a) ∧
        (s.mapSlot g a = .reserved h ↔ (s.entry h).segment = g ∧ ∃ p, (s.entry h).state = .moving p a)) ∧
      (s.mapSlot g a = .joinHold → s.runState.isSettling = true ∨ (s.engine g).holding = some a)) ∧
    ∀ (g : Seg) (a : Byte), (s.engine g).holding = some a → isAddress a = true ∧ s.mapSlot g a = .joinHold

/-! ### Ports and notice units -/

/-- A port's WAITING list holds each WAITING slot once and no other slot, and its completion order each COMPLETED slot once and
no other (R168, R172). -/
def PortState.listsAgree (x : PortState) : Prop :=
  x.waiting.Nodup ∧ x.completed.Nodup ∧
    ∀ i : SlotIx, (i ∈ x.waiting ↔ ∃ r, x.slots[i] = .waiting r) ∧ (i ∈ x.completed ↔ ∃ q r, x.slots[i] = .completed q r)

/-- The slots whose requests are in the queue of segment `g`, with their ports. -/
def State.queuedSlots (s : State) (g : Seg) : List (PortId × SlotIx) := (s.engine g).queue.map fun x => (x.port, x.slot)

/-- The slots whose requests engine `g` carries or has attached to its pass, with their ports. -/
def Engine.carriedSlots (e : Engine) : List (PortId × SlotIx) :=
  e.pass.attached ++
    match e.activity with
    | some { work := _, owner := some { port := p, slot := some i }, retries := _ } => [(p, i)]
    | some { work := _, owner := some { port := _, slot := none }, retries := _ }
    | some { work := _, owner := none, retries := _ } | none => []

/-- Slots and lists agree (R168, R169, R172): both ports' lists agree with their slots; a queued request's slot is DISPATCHED
and stands in one place of one queue; a carried or attached request's slot is ON_LINE and stands in one place. -/
def State.slotsAgree (s : State) : Prop :=
  (∀ p, (s.port p).listsAgree) ∧
    (allSegments.flatMap s.queuedSlots).Nodup ∧
    (allSegments.flatMap fun g => (s.engine g).carriedSlots).Nodup ∧
    (∀ g, ∀ x ∈ s.queuedSlots g, ∃ r, s.slot x.1 x.2 = .dispatched r) ∧
    ∀ g, ∀ x ∈ (s.engine g).carriedSlots, ∃ r, s.slot x.1 x.2 = .onLine r

/-- A port's change set holds only handles that the port watches (R186). -/
def State.changeSetsWatched (s : State) : Prop :=
  ∀ (p : PortId) (h : Handle), (s.port p).notices.changed[h] = true → (s.entry h).watches p = true

/-! ### The run state -/

/-- The seeding window is open only in RUN, and in SETTLING where a RESET left it standing (R20, R189, R209). -/
def State.seedingInRun (s : State) : Prop :=
  s.seeding = true → s.runState = .run ∨ s.runState.isSettling = true

/-- In QUIET no slot is WAITING, DISPATCHED or ON_LINE and every segment queue is empty (R204). -/
def State.quietDrained (s : State) : Prop :=
  s.runState = .quiet → (∀ (p : PortId) (i : SlotIx), (s.slot p i).isBusy = false) ∧ ∀ g : Seg, (s.engine g).queue = []

/-! ### The words of the statements

What the obligations say a command does, in terms of the registers alone. -/

/-- Request `r` in slot `i` heads port `p`'s WAITING list, with `rest` behind it, has not been dispatched before, and the run
state is not STARTING (R170). -/
def State.heads (s : State) (p : PortId) (i : SlotIx) (r : Request) (rest : List SlotIx) : Prop :=
  s.runState.isStarting = false ∧ (s.port p).waiting = i :: rest ∧ i ∉ rest ∧ s.slot p i = .waiting r ∧
    (s.port p).waitsFor = none

/-- The response to request `r` with the given status, generation and body: kind and tag are the request's (R173). -/
def Request.reply (r : Request) (st : Status) (gen : Byte) (body : List Byte) : Response :=
  { kind := r.kind, tag := r.tag, status := st, generation := gen, body := body }

/-- A port on which request `r` in slot `i` has been answered: COMPLETED with its response, last in the completion order,
with `rest` left WAITING (R168, R169, R172, R173). Nothing else of the port differs. -/
def PortState.answered (x : PortState) (i : SlotIx) (r : Request) (rest : List SlotIx) (st : Status) (gen : Byte)
    (body : List Byte) : PortState :=
  { x with
    slots := x.slots.set i (.completed r (r.reply st gen body))
    waiting := rest
    completed := x.completed ++ [i]
    waitsFor := none }

/-- The state in which that request has been answered; nothing else differs. -/
def State.answered (s : State) (p : PortId) (i : SlotIx) (r : Request) (rest : List SlotIx) (st : Status) (gen : Byte)
    (body : List Byte) : State :=
  s.setPort p ((s.port p).answered i r rest st gen body)

/-- The state in which request `r`, held in slot `i` of port `p` in whatever place of its course, has been answered: COMPLETED,
last in the completion order, and out of the WAITING list if it was there (R169, R172, R173). Nothing else differs. -/
def State.replied (s : State) (p : PortId) (i : SlotIx) (r : Request) (st : Status) (gen : Byte) (body : List Byte) : State :=
  s.setPort p
    { s.port p with
      slots := (s.port p).slots.set i (.completed r (r.reply st gen body))
      waiting := (s.port p).waiting.filter (· != i)
      completed := (s.port p).completed ++ [i]
      waitsFor := if (s.port p).waiting.head? = some i then none else (s.port p).waitsFor }

/-- The state in which the request that slot `i` of port `p` holds, in any place of its course, has been answered; a slot that is
FREE or COMPLETED holds none, and nothing differs. -/
def State.repliedAt (s : State) (p : PortId) (i : SlotIx) (st : Status) (gen : Byte) (body : List Byte) : State :=
  match s.slot p i with
  | .waiting r | .dispatched r | .onLine r => s.replied p i r st gen body
  | .free | .completed _ _ => s

/-- The state in which the request that an activity carries has been answered. The response to an orphaned request of a reset
port is discarded: no slot is touched (R28, R100, R176). -/
def State.told (s : State) (o : Option Owner) (st : Status) (gen : Byte) (body : List Byte) : State :=
  match o with
  | some { port := p, slot := some i } => s.repliedAt p i st gen body
  | some { port := _, slot := none } | none => s

/-- The state in which the requests of the given slots have been answered one after the other, each with generation 0. -/
def State.repliedEach (s : State) (st : Status) (body : List Byte) : List (PortId × SlotIx) → State
  | [] => s
  | (p, i) :: rest => (s.repliedAt p i st 0 body).repliedEach st body rest

/-- The state in which the pass of segment `g`, if one is active, is over (R118, R137, R138): the record inactive with its counts,
the attached DISCOVERs answered in the order of attachment with end reason and counts. Nothing else differs. -/
def State.passOver (s : State) (g : Seg) (st : Status) (reason : Byte) : State :=
  let c := (s.engine g).pass
  if c.active then
    (s.updEngine g fun e => { e with pass := { c with active := false, attached := [] } }).repliedEach st
      [reason, byte c.contests, byte c.joined, byte c.rejoined, byte c.parked, byte c.lost] c.attached
  else s

/-- The bytes of a response frame (R173, R212). -/
def responseBytes (r : Response) : List Byte :=
  let head := [kindCode r.kind, r.tag, statusCode r.status, r.generation, byte r.body.length] ++ r.body
  head ++ bytes16 (crc head)

/-- The response that a COMPLETED slot holds. -/
def Slot.response? : Slot → Option Response
  | .completed _ r => some r
  | .free | .waiting _ | .dispatched _ | .onLine _ => none

/-- Port `p` after the removal at the end of exchange `x`, in which the host clocked `n` bits: the slot of a response whose last
bit was clocked, and which the slot still holds, is FREE and out of the completion order (R163); none is removed in SETTLING
(R177). -/
def State.delivered (s : State) (p : PortId) (x : Exchange) (n : Nat) : PortState :=
  match x.slot, x.response with
  | some i, some r =>
    if (s.slot p i).response? = some r ∧ 8 * (8 + r.body.length) ≤ n ∧ s.runState.isSettling = false then
      { s.port p with
        slots := (s.port p).slots.set i .free, completed := (s.port p).completed.filter (· != i) }
    else s.port p
  | _, _ => s.port p

/-- The run state after a wake signal (R207). -/
def RunState.woken : RunState → RunState
  | .quieting | .quiet => .run
  | .run => .run
  | .starting ph => .starting ph

/-- The run state of `t` is that of `s` after an event that hands the entries of `handed` to their watchers and raises the
notices of `raised`, by their bits in the R178 table (R182, R207): a unit with CHANGED enabled that is handed a handle it watches,
and one with a raised notice enabled, wakes the part. -/
def State.wakesTo (s t : State) (handed : Handle → Prop) (raised : Nat → Prop) : Prop :=
  let wakes : Prop := ∃ q : PortId,
    (∃ h, handed h ∧ (s.entry h).watches q = true ∧ (s.port q).notices.mask.getLsbD 1 = true) ∨
      ∃ k, raised k ∧ (s.port q).notices.mask.getLsbD k = true
  (wakes → t.runState = s.runState.woken) ∧ (¬ wakes → t.runState = s.runState)

/-- A notice unit that has been handed handle `h`, when `told` (R186). -/
def NoticeUnit.handed (u : NoticeUnit) (told : Bool) (h : Handle) : NoticeUnit :=
  { u with changed := if told then u.changed.set h true else u.changed }

/-- A port whose notice unit has been handed handle `h`, when `told`. -/
def PortState.handed (x : PortState) (told : Bool) (h : Handle) : PortState := { x with notices := x.notices.handed told h }

/-- The next generation (R12): one up, from 255 to 1. -/
def generationAfter (g : Byte) : Byte := if g.toNat = 255 then 1 else g + 1

/-- The state after one directory event that gives entry `h` the content `e` and moves its generation (R10, R12): the handle
goes to the change set of each port that watches it, and a watching unit with CHANGED enabled wakes the part (R182, R207).
Nothing else differs. -/
def State.moved (s : State) (h : Handle) (e : Entry) : State :=
  let a := (s.entry h).watchA
  let b := (s.entry h).watchB
  { s with
    entries := s.entries.set h { e with generation := generationAfter (s.entry h).generation }
    portA := s.portA.handed a h
    portB := s.portB.handed b h
    runState :=
      if (a && s.portA.notices.mask.getLsbD 1) || (b && s.portB.notices.mask.getLsbD 1) then s.runState.woken
      else s.runState }

/-- A port whose sticky flag `n` has been set (R179). -/
def PortState.flagged (x : PortState) (n : Notice) : PortState :=
  { x with notices := { x.notices with sticky := x.notices.sticky ||| (1#13 <<< n.bit) } }

/-- The state after the notice `n` has been raised (R178): the flag is set in both units, and a unit that has it enabled wakes
the part (R182, R207). Nothing else differs. -/
def State.noticed (s : State) (n : Notice) : State :=
  { s with
    portA := s.portA.flagged n
    portB := s.portB.flagged n
    runState :=
      if s.portA.notices.mask.getLsbD n.bit || s.portB.notices.mask.getLsbD n.bit then s.runState.woken else s.runState }

/-- The state in which a MOVING or RETIRING entry `h` has returned to its prior state with the given silence: a SEEDED or PRESENT
one whose silence has reached the T in force is ABSENT instead, with the ABSENT notice (R94, R113, R156). An ABSENT entry keeps
its absent age (R8). Nothing else differs. -/
def State.backTo (s : State) (h : Handle) (prior : Prior) (silence : Nat) : State :=
  let e := s.entry h
  match prior with
  | .seeded | .present =>
    if s.threshold e.segment ≤ silence then
      (s.moved h { e with state := .absent, silence := silence, age := 0 }).noticed .absent
    else s.moved h { e with state := priorState prior, silence := silence, age := 0 }
  | .absent => s.moved h { e with state := .absent, silence := silence }
  | .conflict => s.moved h { e with state := .conflict, silence := silence, age := 0 }

/-- What the return of a MOVE or RETIRE that does not run makes of its entry, with retire threshold `T` in force (R94): the prior
state, or ABSENT where a SEEDED or PRESENT entry's silence has reached T, one generation further. An entry that is neither
MOVING nor RETIRING stays. -/
def Entry.returned (e : Entry) (T : Nat) : Entry :=
  let back (prior : Prior) : Entry :=
    match prior with
    | .seeded | .present =>
      if T ≤ e.silence then { e with state := .absent, age := 0 } else { e with state := priorState prior, age := 0 }
    | .absent => { e with state := .absent }
    | .conflict => { e with state := .conflict, age := 0 }
  match e.state with
  | .moving prior _ | .retiring prior _ => { back prior with generation := generationAfter e.generation }
  | .free | .seeded | .present | .absent | .conflict => e

/-- A MOVING or RETIRING entry that becomes ABSENT when it returns with retire threshold `T` in force (R94). -/
def Entry.lapses (e : Entry) (T : Nat) : Prop :=
  T ≤ e.silence ∧ ∃ prior, (prior = .seeded ∨ prior = .present) ∧
    ((∃ a, e.state = .moving prior a) ∨ ∃ f, e.state = .retiring prior f)

/-- An entry that a MOVE or a RETIRE holds. -/
def Entry.inHand (e : Entry) : Prop := (∃ prior a, e.state = .moving prior a) ∨ ∃ prior f, e.state = .retiring prior f

/-- The queued request is a MOVE or a RETIRE of entry `h`. -/
def QueueItem.holds (x : QueueItem) (h : Handle) : Prop :=
  x.entry = some h ∧ ((∃ b a e, x.req = .move b a e) ∨ ∃ b f e, x.req = .retire b f e)

/-- In the entries and the address maps, `t` is `s` with the `given` entries returned (R94), `T` giving the threshold in force on
each segment: the target of a MOVING one is EMPTY again. Every other entry and map slot is as it was. -/
def State.returnsTo (s t : State) (T : Seg → Nat) (given : Handle → Prop) : Prop :=
  (∀ h : Handle, (given h → t.entry h = (s.entry h).returned (T (s.entry h).segment)) ∧ (¬ given h → t.entry h = s.entry h)) ∧
    ∀ (g : Seg) (a : Byte),
      let freed : Prop := ∃ h prior, given h ∧ (s.entry h).segment = g ∧ (s.entry h).state = .moving prior a
      (freed → t.mapSlot g a = .empty) ∧ (¬ freed → t.mapSlot g a = s.mapSlot g a)

/-- What port `q`'s notice unit in `t` holds once the `given` entries of `s` have returned (R94): each that was in hand and is
watched is in the change set, and ABSENT is set when one of them lapses; `more` are the sticky flags that the same event sets
beside it. -/
def State.returnsTold (s t : State) (T : Seg → Nat) (given : Handle → Prop) (q : PortId) (more : BitVec 13) : Prop :=
  (t.port q).notices.mask = (s.port q).notices.mask ∧
    (∀ h : Handle, (t.port q).notices.changed[h] = true ↔
      (s.port q).notices.changed[h] = true ∨ (given h ∧ (s.entry h).inHand ∧ (s.entry h).watches q = true)) ∧
    ∀ k, k < 13 → ((t.port q).notices.sticky.getLsbD k = true ↔
      (s.port q).notices.sticky.getLsbD k = true ∨ more.getLsbD k = true ∨
        (k = 4 ∧ ∃ h, given h ∧ (s.entry h).lapses (T (s.entry h).segment)))

/-- The run state of `t` is that of `s` after the return of the `given` entries (R94), which tells the watchers of each that was
in hand and raises ABSENT when one lapses; `more` are the notices that the same event raises beside it. -/
def State.returnsWaking (s t : State) (T : Seg → Nat) (given : Handle → Prop) (more : BitVec 13) : Prop :=
  s.wakesTo t (fun h => given h ∧ (s.entry h).inHand) fun k =>
    more.getLsbD k = true ∨ (k = 4 ∧ ∃ h, given h ∧ (s.entry h).lapses (T (s.entry h).segment))

/-- The state in which entry `h` of segment `g` has become CONFLICT, on the resolution list, with the CONFLICT notice (R139,
R140). Nothing else differs. -/
def State.disputed (s : State) (g : Seg) (h : Handle) : State :=
  ((s.moved h { s.entry h with state := .conflict, age := 0 }).updEngine g fun y =>
    { y with resolution := if h ∈ y.resolution then y.resolution else y.resolution ++ [h] }).noticed .conflict

/-- The state in which a retirement has made entry `h` FREE (R13, R116, R157): its map slot EMPTY, its generation moved, the
RETIRED notice raised. Nothing else differs. -/
def State.retired (s : State) (h : Handle) : State :=
  let e := s.entry h
  ((s.setMap e.segment e.address .empty).moved h
    { state := .free, generation := 0, identity := 0, cls := 0, segment := 0, address := 0, label := none, stride := none,
      silence := 0, age := 0, claim := none, watchA := e.watchA, watchB := e.watchB }).noticed .retired

/-- Whether notice flag `k` of a port is set, `k` the position in the R178 table: RESPONSE_READY while some slot is COMPLETED,
CHANGED while the change set holds a handle, any other as its sticky flag stands (R178, R180). -/
def PortState.flagSet (x : PortState) (k : Nat) : Prop :=
  if k = 0 then ∃ (i : SlotIx) (q : Request) (r : Response), x.slots[i] = .completed q r
  else if k = 1 then ∃ h : Handle, x.notices.changed[h] = true
  else x.notices.sticky.getLsbD k = true

/-- The attention output of a port out of STARTING: some flag is set and enabled (R181). -/
def PortState.attends (x : PortState) : Prop := ∃ k, k < 13 ∧ x.flagSet k ∧ x.notices.mask.getLsbD k = true

/-- The condition of the status byte (R209): 0 STARTING, 1 RUN with the window closed, 2 RUN with it open, 3 QUIETING,
4 QUIET. -/
def State.reportedCondition (s : State) : Nat :=
  match s.runState, s.seeding with
  | .starting _, _ => 0
  | .run, false => 1
  | .run, true => 2
  | .quieting, _ => 3
  | .quiet, _ => 4

/-- A whole request frame (R164, R210). -/
def requestFrame (k : ReqKind) (tag : Byte) (body : List Byte) : List Byte :=
  [kindCode k, tag, byte body.length] ++ body ++ bytes16 (crc ([kindCode k, tag, byte body.length] ++ body))

/-- The first common check that a request naming handle byte `b` fails, with its answer: status, generation and body (R29 to
R35). `claim` says whether check 4 applies, `expected` is the expected generation where check 5 applies. -/
def State.firstFailure (s : State) (p : PortId) (b : Byte) (claim : Bool) (expected : Option Byte) :
    Option (Status × Byte × List Byte) :=
  if h : b.toNat < 128 then
    let e := s.entry ⟨b.toNat, h⟩
    if e.state = .free then some (.freeEntry, e.generation, [])
    else if s.permits p e.segment = false then some (.notPermitted, e.generation, [])
    else if claim = true ∧ e.claim = some p.other then some (.claimed, e.generation, [claimCode e.claim])
    else
      match expected with
      | some x => if x = 0 ∨ x = e.generation then none else some (.stale, e.generation, [])
      | none => none
  else some (.badHandle, 0, [])

/-- The first check after the common checks that a line request for entry `h` fails: the state answer of its kind, the segment
condition, and for a MOVE the pool and the map slot of its target (R14, R36, R90, R145, R153). -/
def State.lineFailure (s : State) (h : Handle) (answer : EntryState → Option Status) (target : Option Byte) :
    Option Status :=
  let e := s.entry h
  match answer e.state with
  | some c => some c
  | none =>
    if (s.segSetup e.segment).fitted = false ∨ (s.engine e.segment).settings.on = false then some .segmentOff
    else if (s.engine e.segment).state = .fault then some .segmentFault
    else
      match target with
      | none => none
      | some t =>
        if t.toNat < (s.segSetup e.segment).poolLow.toNat ∨ (s.segSetup e.segment).poolHigh.toNat < t.toNat then
          some .outOfPool
        else if s.mapSlot e.segment t = .empty then none
        else some .addressInUse

/-- The first check up to the map slot that a SEED for address `a` of segment `g` fails, with its answer (R200). -/
def State.seedFailure (s : State) (p : PortId) (g : Seg) (a : Byte) : Option (Status × Byte × List Byte) :=
  if s.seeding = false then some (.wrongState, 0, [])
  else if s.permits p g = false then some (.notPermitted, 0, [])
  else if (s.segSetup g).fitted = false ∨ a.toNat < (s.segSetup g).poolLow.toNat ∨ (s.segSetup g).poolHigh.toNat < a.toNat then
    some (.outOfPool, 0, [])
  else
    match s.mapSlot g a with
    | .held h | .reserved h => some (.addressInUse, (s.entry h).generation, [byte h.val])
    | .joinHold => some (.addressInUse, 0, [])
    | .empty => none

/-- The queue of segment `g` has a free place, and the other port has no request waiting for it (R77, R78). -/
def State.placeFor (s : State) (g : Seg) (p : PortId) : Prop :=
  (s.engine g).queue.length < 8 ∧ s.waitingFor g p.other = none

/-- Line request `r` of port `p`, which command `c` dispatches, passes every check of its kind: it is then `q` for the queue of
segment `g`, of entry `e` if it names one (R14, R30, R36, R90, R121, R145, R153). -/
def State.passes (s : State) (p : PortId) (r : Request) (c : Instr) (g : Seg) (q : LineReq) (e : Option Handle) : Prop :=
  (∃ (h : Handle) (x item len : Byte), r.kind = .nodeRead ∧ r.body = [byte h.val, x, item, len] ∧ 1 ≤ len.toNat ∧
    len.toNat ≤ 32 ∧ s.firstFailure p (byte h.val) false (some x) = none ∧ s.lineFailure h transferState none = none ∧
    c = .nodeRead p ∧ g = (s.entry h).segment ∧ q = .nodeRead (byte h.val) x item len ∧ e = some h) ∨
  (∃ (h : Handle) (x item : Byte) (data : List Byte), r.kind = .nodeWrite ∧ r.body = byte h.val :: x :: item :: data ∧
    1 ≤ data.length ∧ data.length ≤ 32 ∧ s.firstFailure p (byte h.val) true (some x) = none ∧
    s.lineFailure h transferState none = none ∧
    c = .nodeWrite p ∧ g = (s.entry h).segment ∧ q = .nodeWrite (byte h.val) x item data ∧ e = some h) ∨
  (∃ (k : Seg) (item : Byte) (data : List Byte), r.kind = .broadcast ∧ r.body = byte k.val :: item :: data ∧
    1 ≤ data.length ∧ data.length ≤ 32 ∧ s.permits p k = true ∧ s.segmentCondition k = none ∧
    c = .broadcast p ∧ g = k ∧ q = .broadcast k item data ∧ e = none) ∨
  (∃ k : Seg, r.kind = .discover ∧ r.body = [byte k.val] ∧ s.permits p k = true ∧ s.seeding = false ∧
    s.segmentCondition k = none ∧ c = .discover p ∧ g = k ∧ q = .discover k ∧ e = none) ∨
  (∃ (h : Handle) (t x : Byte), r.kind = .move ∧ r.body = [byte h.val, t, x] ∧ 1 ≤ t.toNat ∧ t.toNat ≤ 200 ∧
    s.firstFailure p (byte h.val) true (some x) = none ∧ s.lineFailure h moveState (some t) = none ∧
    c = .move p ∧ g = (s.entry h).segment ∧ q = .move (byte h.val) t x ∧ e = some h) ∨
  ∃ (h : Handle) (x : Byte) (force : Bool), r.kind = .retire ∧ r.body = [byte h.val, if force then 1 else 0, x] ∧
    s.firstFailure p (byte h.val) true (some x) = none ∧ s.lineFailure h retireState none = none ∧
    c = .retire p ∧ g = (s.entry h).segment ∧ q = .retire (byte h.val) force x ∧ e = some h

/-- A line request as its checks are taken anew at its admission: a NODE_READ's generation check is made at its dispatch only
(R87, R78; log 30). -/
def checkedAnew : LineReq → LineReq
  | .nodeRead h _ item len => .nodeRead h 0 item len
  | .nodeWrite h x item data => .nodeWrite h x item data
  | .broadcast g item data => .broadcast g item data
  | .discover g => .discover g
  | .move h t x => .move h t x
  | .retire h f x => .retire h f x

/-- The state in which request `r` of slot `i` has been admitted to the queue of segment `g` as `x`: last in the queue, its
slot DISPATCHED, its port last served (R77, R78, R169). Nothing else differs. -/
def State.admitted (s : State) (p : PortId) (i : SlotIx) (r : Request) (rest : List SlotIx) (g : Seg) (x : QueueItem) :
    State :=
  (s.updEngine g fun e => { e with queue := e.queue ++ [x], lastServed := p }).setPort p
    { s.port p with slots := (s.port p).slots.set i (.dispatched r), waiting := rest, waitsFor := none }

/-- `t` is `s` with line request `q` of slot `i`, whose request is `r`, admitted to the queue of segment `g` (R36, R77, R78, R169):
the place in the queue carries the entry that `q` names with its identity; a MOVE makes its entry MOVING and its target
RESERVED (R146); a RETIRE makes its entry RETIRING and takes it off the resolution list (R154). Nothing else differs. -/
def State.entersAs (s t : State) (p : PortId) (i : SlotIx) (r : Request) (rest : List SlotIx) (g : Seg) (q : LineReq) : Prop :=
  let queued (e : Option Handle) (x : Ident) : State :=
    s.admitted p i r rest g { port := p, slot := i, req := q, entry := e, identity := x, segment := g }
  let named (b : Byte) (h : Handle) : Prop := b = byte h.val ∧ (s.entry h).segment = g
  match q with
  | .broadcast _ _ _ | .discover _ => t = queued none 0
  | .nodeRead b _ _ _ | .nodeWrite b _ _ _ => ∃ h, named b h ∧ t = queued (some h) (s.entry h).identity
  | .move b target _ =>
    ∃ h, named b h ∧
      t = ((queued (some h) (s.entry h).identity).setMap g target (.reserved h)).moved h
        { s.entry h with state := .moving .present target }
  | .retire b force _ =>
    ∃ h prior, named b h ∧ (s.entry h).state = priorState prior ∧
      t = ((queued (some h) (s.entry h).identity).updEngine g fun y =>
        { y with resolution := y.resolution.filter (· != h) }).moved h { s.entry h with state := .retiring prior force }

/-- The state in which engine `g` carries `w` with owner `o`, with a first attempt of its frame waiting for the idle gap (R70,
R72, R84). Nothing else differs. -/
def State.carrying (s : State) (g : Seg) (st : EngineState) (w : Work) (o : Option Owner) : State :=
  s.updEngine g fun e =>
    { e with
      state := st
      activity := some { work := w, owner := o, retries := 0 }
      line := { e.line with
        attempt := some { frame := w.frame, phase := .idleWait, received := [], openRun := false, slotsRead := 0 } } }

/-- The line as measured at level `lv` in a run of `run` bit times: filtered and raw level are `lv`, and no other run stands (R57,
R58, R62; logs 5 and 36). -/
def Line.showing (l : Line) (lv : Level) (run : Nat) : Line :=
  { l with
    level := lv, pin := lv, held := 0
    recessiveRun := if lv = .recessive then run else 0
    dominantRun := if lv = .dominant then run else 0 }

/-- The line as the part releases a break of its own that has lasted `run` bit times: the filtered level is still dominant, a
quarter bit time behind the raw one (R50, R63); its dominant run is the model's (log 29). -/
def Line.releasing (l : Line) (run : Nat) : Line :=
  { l with level := .dominant, held := 0, recessiveRun := 0, dominantRun := run, driving := false }

/-- The engine of segment `g` releases its line whatever its line interface holds (R49): in STARTING, unfitted, OFF or in FAULT. -/
def State.silenced (s : State) (g : Seg) : Prop :=
  s.runState.isStarting = true ∨ (s.segSetup g).fitted = false ∨ (s.engine g).state = .off ∨ (s.engine g).state = .fault

/-- Engine `g` carries activity `a` with attempt `t` on its line. -/
def State.attempting (s : State) (g : Seg) (a : Activity) (t : Attempt) : Prop :=
  (s.engine g).activity = some a ∧ (s.engine g).line.attempt = some t

/-- The state in which engine `g` has ended its activity, with nothing in progress: IDLE when its setting is on, otherwise OFF with
the record of the last pick cleared (R72, R80, R82). When a switch-off was taken during the activity, an active pass ends OFF
with it (R92, R137; log 33). Nothing else differs. -/
def State.ended (s : State) (g : Seg) : State :=
  let t := s.updEngine g fun e =>
    { e with
      state := if e.settings.on then .idle else .off
      tookQueue := e.settings.on && e.tookQueue
      offTaken := false, activity := none, line := { e.line with attempt := none } }
  if (s.engine g).staysOn then t else t.passOver g .segmentOff 4

/-- The state in which engine `g` has ended a contest activity: a pass that has counted 64 contests ends LIMIT with it, or OFF when
a switch-off was taken during the activity (R137). -/
def State.contestEnded (s : State) (g : Seg) : State :=
  (if (s.engine g).staysOn = true ∧ 64 ≤ (s.engine g).pass.contests then s.passOver g .ok 2 else s).ended g

/-- The state from which the pick of segment `g` takes its work: in QUIETING and QUIET an active pass has ended QUIET first (R80,
R137, R138). -/
def State.readied (s : State) (g : Seg) : State := if s.runState = .run then s else s.passOver g .ok 3

/-- The state in which engine `g` goes on with step `w` of activity `a`, with no retry made and a first attempt of its frame
waiting for the idle gap (R84). Nothing else differs. -/
def State.stepped (s : State) (g : Seg) (a : Activity) (w : Work) : State :=
  s.updEngine g fun e =>
    { e with
      activity := some { a with work := w, retries := 0 }
      line := { e.line with
        attempt := some { frame := w.frame, phase := .idleWait, received := [], openRun := false, slotsRead := 0 } } }

/-- The attempt in progress is the last of its transaction: as many retries as the limit in force have been made, or it is a
forced RETIRE's only one (R84, R155). -/
def State.lastAttempt (s : State) (g : Seg) (a : Activity) : Prop :=
  (s.engine g).settings.retries ≤ a.retries ∨ ∃ h adr, a.work = .retire h adr true

/-- Attempt `t` awaits a reply character that is not the last, and data `d` with mark `mark` passes its check (R59, R61): first
the reply's address with mark 1; then, with mark 0, the status, the length and the characters up to the first CRC byte. -/
def Attempt.takes (t : Attempt) (mark : Bool) (d : Byte) : Prop :=
  (t.phase = .replyWait ∨ t.phase = .reply) ∧ t.openRun = false ∧
    match t.received with
    | [] => mark = true ∧ d = t.frame.replyAddress
    | [_] => mark = false ∧ (d = 0 ∨ t.frame.function.refuseAllowed = true)
    | [_, st] => mark = false ∧ d.toNat ≤ 32 ∧ (st = 0 → d = t.frame.replyLength)
    | _ :: _ :: len :: after => mark = false ∧ after.length < len.toNat + 1

/-- Attempt `t` awaits a reply character, and data `d` with mark `mark` fails a check that is not the CRC's (R59, R61): a first
character without mark 1 or from another address, a later one with mark 1, a REFUSE that the function does not allow, a length
above 32 or, for ACCEPT, other than the function's. -/
def Attempt.rejects (t : Attempt) (mark : Bool) (d : Byte) : Prop :=
  (t.phase = .replyWait ∨ t.phase = .reply) ∧ t.openRun = false ∧
    match t.received with
    | [] => mark = false ∨ d ≠ t.frame.replyAddress
    | [_] => mark = true ∨ (d ≠ 0 ∧ t.frame.function.refuseAllowed = false)
    | [_, st] => mark = true ∨ 32 < d.toNat ∨ (st = 0 ∧ d ≠ t.frame.replyLength)
    | _ :: _ :: _ :: _ => mark = true

/-- Command `c` brings the last character of a reply, and the reply is then `head` with the two CRC bytes `x` (R59). -/
def Attempt.completedBy (t : Attempt) (g : Seg) (c : Instr) (head : List Byte) (x : BitVec 16) : Prop :=
  t.phase = .reply ∧ t.openRun = false ∧ ∃ last : Byte, t.received ++ [last] = head ++ bytes16 x ∧
    c = .replyCharacter g { startDominant := true, data := last, mark := false, stopRecessive := true }

/-- Attempt `t` of segment `g` fails FRAMING with command `c` (R53, R60, R61): a gap of 12 bit times, a check that a character
fails at once, a wrong CRC, or the end of the dominant run of a malformed character. `m` is `s` with the line as measured in
that event; at the end of the dominant run it has just turned recessive (log 5). -/
def State.misframes (s : State) (g : Seg) (t : Attempt) (c : Instr) (m : State) : Prop :=
  (t.phase = .reply ∧ t.openRun = false ∧ m = s ∧ ∃ n, 12 ≤ n ∧ c = .characterGapTimeout g n) ∨
    (m = s ∧ ∃ (mark : Bool) (d : Byte), t.rejects mark d ∧
      c = .replyCharacter g { startDominant := true, data := d, mark := mark, stopRecessive := true }) ∨
    (m = s ∧ ∃ (st : Byte) (d : List Byte) (x : BitVec 16), d.length ≤ 32 ∧
      x ≠ crc ([t.frame.replyAddress, st, byte d.length] ++ d) ∧
      t.completedBy g c ([t.frame.replyAddress, st, byte d.length] ++ d) x) ∨
    (t.phase = .reply ∧ t.openRun = true ∧ m = s.updLine g (·.showing .recessive 0) ∧
      ∃ run, run < 20 ∧ c = .lineReturnsRecessive g run)

/-- Command `c` ends attempt `t` of activity `a` on segment `g`, and the transaction with it, with the final outcome `o`; `m` is
`s` with the line as measured in that event (R53, R55, R59 to R63, R70, R84). At the end of the part's own break the line is
still dominant behind the filter (R50); the dominant run written then is the model's (log 29). -/
def State.concludes (s : State) (g : Seg) (a : Activity) (t : Attempt) (c : Instr) (o : LineOutcome) (m : State) : Prop :=
  let head (st : Byte) (d : List Byte) : List Byte := [t.frame.replyAddress, st, byte d.length] ++ d
  match o with
  | .accept d =>
    t.frame.function.expectsReply = true ∧ d.length ≤ 32 ∧ byte d.length = t.frame.replyLength ∧
      t.completedBy g c (head 0 d) (crc (head 0 d)) ∧ m = s
  | .refuse code =>
    t.frame.function.refuseAllowed = true ∧ code ≠ 0 ∧
      ∃ d : List Byte, d.length ≤ 32 ∧ t.completedBy g c (head code d) (crc (head code d)) ∧ m = s
  | .noReply =>
    s.lastAttempt g a ∧ m = s ∧
      ((t.phase = .replyWait ∧ ∃ n, 40 ≤ n ∧ c = .replyWindowTimeout g n) ∨
        (t.phase = .address ∧ t.frame.function.addressed = true ∧ c = .acknowledgeSlot g false))
  | .framing => s.lastAttempt g a ∧ s.misframes g t c m
  | .collision =>
    (t.phase = .replyWait ∨ t.phase = .reply) ∧
      ∃ run, 20 ≤ run ∧ c = .collision g run ∧ m = s.updLine g (·.showing .dominant run)
  | .contention =>
    s.lastAttempt g a ∧ t.phase = .ownBreak ∧ (s.engine g).line.driving = true ∧
      ∃ run, 24 ≤ run ∧ c = .breakRelease g run ∧ m = s.updLine g (·.releasing run)
  | .sent =>
    t.phase = .address ∧ t.frame.function.addressed = false ∧ t.frame.function.expectsReply = false ∧
      t.frame.function ≠ .callUnbound ∧ c = .commandFrameSent g ∧ m = s
  | .stuck => False

/-- The DISCOVERs attached to the pass of segment `g` in `s` stand answered in `u` with status `st`, generation 0, end reason
`reason` and the counts of `c` (R138, R213). -/
def State.attachedAnswered (s u : State) (g : Seg) (st : Status) (reason : Byte) (c : PassRecord) : Prop :=
  ∀ y ∈ (s.engine g).pass.attached, ∃ z ∈ (u.slot y.1 y.2).response?, z.status = st ∧ z.generation = 0 ∧
    z.body = [reason, byte c.contests, byte c.joined, byte c.rejoined, byte c.parked, byte c.lost]

/-- `t` is `s` with the line interface of segment `g` changed only in its measured levels and runs. -/
def State.measuredFrom (s t : State) (g : Seg) : Prop :=
  ∃ (lv pin : Level) (n r d : Nat), t = s.updLine g fun l =>
    { l with level := lv, pin := pin, held := n, recessiveRun := r, dominantRun := d }

/-- Entry `h` of segment `g` falls when the retire threshold is lowered to `T` (R114): SEEDED or PRESENT with its silence at the
new T. -/
def State.falls (s : State) (g : Seg) (T : Nat) (h : Handle) : Prop :=
  T < s.threshold g ∧ (s.entry h).segment = g ∧ ((s.entry h).state = .seeded ∨ (s.entry h).state = .present) ∧
    T ≤ (s.entry h).silence

/-- `t` is `s` after the entries of segment `g` have been held to a retire threshold written as `T` (R114): each entry that falls
is ABSENT with age 0, one generation further and told to its watchers, and ABSENT is raised once if any does; an enabled CHANGED
or ABSENT wakes the part (R182, R207). A T that is not lower changes nothing, and nothing else differs. -/
def State.lowersTo (s t : State) (g : Seg) (T : Nat) : Prop :=
  (∀ h : Handle, (s.falls g T h →
      t.entry h = { s.entry h with state := .absent, age := 0, generation := generationAfter (s.entry h).generation }) ∧
    (¬ s.falls g T h → t.entry h = s.entry h)) ∧
  (∀ q : PortId,
    (t.port q).notices.mask = (s.port q).notices.mask ∧
    (∀ h : Handle, (t.port q).notices.changed[h] = true ↔
      (s.port q).notices.changed[h] = true ∨ (s.falls g T h ∧ (s.entry h).watches q = true)) ∧
    ((∃ h, s.falls g T h) → (t.port q).notices.sticky = (s.port q).notices.sticky ||| 0x10) ∧
    ((¬ ∃ h, s.falls g T h) → (t.port q).notices.sticky = (s.port q).notices.sticky)) ∧
  s.wakesTo t (s.falls g T) (fun k => k = 4 ∧ ∃ h, s.falls g T h) ∧
  t = { s with
    entries := t.entries
    runState := t.runState
    portA := { s.portA with notices := t.portA.notices }
    portB := { s.portB with notices := t.portB.notices } }

/-- The body of the response to a line request that leaves its queue, or stops waiting for one, without running (R91, R95, R121,
R213): an end reason with every count 0 for a DISCOVER, no byte for any other kind. -/
def LineReq.unrunBody (x : LineReq) (reason : Byte) : List Byte :=
  match x with
  | .discover _ => [reason, 0, 0, 0, 0, 0]
  | .nodeRead _ _ _ _ | .nodeWrite _ _ _ _ | .broadcast _ _ _ | .move _ _ _ | .retire _ _ _ => []

/-- Every request in the queue of segment `g` in `s` stands answered in `t` with status `st`, oldest first, a DISCOVER with end
reason `reason` (R91, R95). The answer carries the generation of the entry that the request names as it stands in `t`, so after
every return of the event (R37, R91; log 21), and 0 when it names none. -/
def State.queueAnswered (s t : State) (g : Seg) (st : Status) (reason : Byte) : Prop :=
  (∀ x ∈ (s.engine g).queue, ∃ r : Request, s.slot x.port x.slot = .dispatched r ∧
      t.slot x.port x.slot =
        .completed r (r.reply st ((x.entry.map fun h => (t.entry h).generation).getD 0) (x.req.unrunBody reason))) ∧
    ∀ q : PortId, (((s.engine g).queue.filter fun x => x.port == q).map QueueItem.slot).Sublist (t.port q).completed

/-- Every request of either port that waits in `s` for the queue of segment `g` stands answered in `t` with status `st` and is out
of its port's WAITING list (R91, R95), with the generation of the entry that it names as it stands in `t` (R37; log 21), and a
DISCOVER with end reason NONE and every count 0 (R121). -/
def State.waitersAnswered (s t : State) (g : Seg) (st : Status) : Prop :=
  ∀ (q : PortId) (i : SlotIx) (x : LineReq), s.waitingFor g q = some (i, x) →
    (∃ r : Request, s.slot q i = .waiting r ∧
      t.slot q i =
        .completed r (r.reply st (((x.handle?.bind handleOf).map fun h => (t.entry h).generation).getD 0) (x.unrunBody 0))) ∧
      i ∉ (t.port q).waiting ∧ (t.port q).waitsFor = none

/-- Beside its directory, its engines, its notice units and its run state, `t` is `s` with the requests of the `asked` slots
answered: every other slot is as it was, no other request leaves a WAITING list, and the completion orders grow at their ends
(R169, R172). The order in which requests of different groups of one event complete is the model's (log 14) and not said here. -/
def State.answersOnly (s t : State) (asked : PortId → SlotIx → Prop) : Prop :=
  t.seeding = s.seeding ∧ t.setup = s.setup ∧ t.prescaler = s.prescaler ∧ t.freeCount = s.freeCount ∧ t.pending = s.pending ∧
    ∀ q : PortId,
      (t.port q).previous = (s.port q).previous ∧ (t.port q).exchange = (s.port q).exchange ∧
      (∀ i : SlotIx, ¬ asked q i → t.slot q i = s.slot q i) ∧
      (t.port q).waiting.Sublist (s.port q).waiting ∧
      (∀ i : SlotIx, i ∈ (t.port q).waiting ↔ i ∈ (s.port q).waiting ∧ ¬ asked q i) ∧
      ((∃ i, (s.port q).waiting.head? = some i ∧ asked q i) → (t.port q).waitsFor = none) ∧
      ((¬ ∃ i, (s.port q).waiting.head? = some i ∧ asked q i) → (t.port q).waitsFor = (s.port q).waitsFor) ∧
      (s.port q).completed <+: (t.port q).completed

/-- The command that dispatches a kind at port `p`; a PORT_RESET is dispatched in its exchange's end (R175). Either RESTART row
dispatches a RESTART; the first stands here. -/
def ReqKind.command (k : ReqKind) (p : PortId) : Option Instr :=
  match k with
  | .describe => some (.describe p) | .getNotices => some (.getNotices p) | .clearNotices => some (.clearNotices p)
  | .setNoticeMask => some (.setNoticeMask p) | .getChanges => some (.getChanges p) | .portReset => none
  | .restart => some (.restartFull p) | .quiet => some (.quiet p) | .wake => some (.wake p) | .seed => some (.seed p)
  | .seedEnd => some (.seedEnd p) | .findId => some (.findId p) | .findAddr => some (.findAddr p) | .list => some (.list p)
  | .readEntry => some (.readEntry p) | .setLabel => some (.setLabel p) | .setStride => some (.setStride p)
  | .claim => some (.claim p) | .unclaim => some (.unclaim p) | .watch => some (.watch p) | .unwatch => some (.unwatch p)
  | .nodeRead => some (.nodeRead p) | .nodeWrite => some (.nodeWrite p) | .broadcast => some (.broadcast p)
  | .discover => some (.discover p) | .move => some (.move p) | .retire => some (.retire p)
  | .setSegment => some (.setSegment p) | .getSegment => some (.getSegment p)

/-- The shortest and the longest body of a kind (R210). -/
def ReqKind.bodyLengths : ReqKind → Nat × Nat
  | .describe | .getNotices | .getChanges | .quiet | .wake | .seedEnd => (0, 0)
  | .portReset => (0, 40)
  | .clearNotices | .setNoticeMask | .findAddr => (2, 2)
  | .restart | .readEntry | .claim | .unclaim | .watch | .unwatch | .discover | .getSegment => (1, 1)
  | .seed => (12, 12)
  | .findId => (6, 6)
  | .list | .setLabel => (5, 5)
  | .setStride | .move | .retire => (3, 3)
  | .nodeRead => (4, 4)
  | .nodeWrite => (4, 35)
  | .broadcast => (3, 34)
  | .setSegment => (9, 9)

/-- `t` is `s` after the clearing (R192): the directory, the engines, the ports and the notice units at the values of R26, R98,
R177 and R188, in LOADING; the setup, the settings and the queue as they were; a response being sent goes on (R162). -/
def State.clearedTo (s t : State) : Prop :=
  t.runState = .starting .loading ∧ t.seeding = false ∧ t.setup = s.setup ∧ t.pending = s.pending ∧ t.freeCount = s.freeCount ∧
    (∀ h : Handle, t.entry h = freeEntry 1 false false) ∧
    (∀ (g : Seg) (a : Byte), t.mapSlot g a = .empty) ∧
    (∀ p : PortId,
      (∀ i : SlotIx, t.slot p i = .free) ∧ (t.port p).waiting = [] ∧ (t.port p).completed = [] ∧ (t.port p).waitsFor = none ∧
        (t.port p).previous = .none ∧
        (t.port p).exchange = (s.port p).exchange.map (fun x => { x with slot := none }) ∧
        (t.port p).notices.sticky = 0 ∧ (t.port p).notices.mask = 0x801 ∧
        ∀ h : Handle, (t.port p).notices.changed[h] = false) ∧
    ∀ g : Seg,
      t.engine g =
        { state := .off, settings := (s.engine g).settings, queue := [], resolution := [], cursor := 0, pollDue := false,
          timer := none, expiries := 0, discoveryDue := false,
          pass := { active := false, contests := 0, joined := 0, rejoined := 0, parked := 0, lost := 0, attached := [] },
          parked := 0, tookQueue := false, offTaken := false, lastServed := .b, activity := none,
          line := { (s.engine g).line with attempt := none, driving := false } }

/-- What a retain restart makes of an entry (R27): PRESENT, CONFLICT, MOVING and RETIRING become SEEDED with silence 0 and age 0
and one generation further; SEEDED keeps its generation, with silence 0; ABSENT and FREE stay as they are. -/
def Entry.kept (e : Entry) : Entry :=
  match e.state with
  | .present | .conflict | .moving _ _ | .retiring _ _ =>
    { e with state := .seeded, silence := 0, age := 0, generation := generationAfter e.generation }
  | .seeded => { e with silence := 0, age := 0 }
  | .absent | .free => e

/-- Byte `k` of a setup image. -/
def setupByte (m : Image) (k : Nat) : Byte := m.toList.getD k 0

/-- Whether the part accepts an image (R194, R216, R217): signature, checksum, and pool and rate code of each fitted segment. -/
def setupAccepted (m : Image) : Prop :=
  setupByte m 0 = 0x6B ∧ setupByte m 1 = 0x3D ∧ crc (m.toList.take 16) = setupByte m 16 ++ setupByte m 17 ∧
    ∀ g : Seg, (setupByte m 2).getLsbD g.val = true →
      1 ≤ (setupByte m (3 + 3 * g.val)).toNat ∧ (setupByte m (3 + 3 * g.val)).toNat ≤ (setupByte m (4 + 3 * g.val)).toNat ∧
        (setupByte m (4 + 3 * g.val)).toNat ≤ 200 ∧ (setupByte m (5 + 3 * g.val)).toNat % 8 ≤ 5

end Sys2Proof.Machine
end

