-- ==== Sys2Proof/Certificates/Slice0/Obligations.lean ====
section
/-! DEFINITION. The statements for the provers. Each says what it claims in the registers of State; the words it uses stand in
Sys2Proof/Safety.lean. OBLIGATIONS.json names the rules each rests on. -/

open Sys2Proof Sys2Proof.Machine

/-! ### The step -/

/-- A step runs the command at the front of the queue on the state with the queue's rest; on an empty queue one cycle of the
reference clock passes, which the prescaler and the line filters alone count (that a cycle takes a step of its own is the
model's choice, log 3). -/
def Obligations.StepRunsTheFrontCommand : Prop :=
  (∀ (c : Instr) (rest : List Instr) (s : State), step { s with pending := c :: rest } = exec c { s with pending := rest }) ∧
    ∀ s : State, s.pending = [] →
      step s = .next s.cycle ∧ s.cycle = { s with prescaler := s.prescaler.cycle, engines := s.cycle.engines } ∧
        ∀ g : Seg, s.cycle.engine g =
          { s.engine g with line := { (s.engine g).line with
              level := (s.cycle.engine g).line.level, held := (s.cycle.engine g).line.held,
              recessiveRun := (s.cycle.engine g).line.recessiveRun, dominantRun := (s.cycle.engine g).line.dominantRun } }

/-- Every command answers a next state in every state and leaves the queue as it is. -/
def Obligations.EveryCommandAnswersNext : Prop :=
  ∀ (c : Instr) (s : State), ∃ t, exec c s = .next t ∧ t.pending = s.pending

/-- The prescaler (R51, R193, R208), in the `n` reference cycles after its start at the end of SETTLING (R191): the tap of
each rate code repeats every 1024, 512, 256, 128, 64 or 32 cycles, low in the first half and high in the second, and each line
and the setup lines take their clocks from it; the millisecond ticks fall in groups of five, 19,661 four times and 19,660
cycles apart. The setup clock is driven in LOADING. A stopped prescaler counts nothing and brings no tick. The level a tap
begins with, and that the first tick's 19,661 cycles count from the start, are the model's (log 34). -/
def Obligations.PrescalerDividesTheReferenceClock : Prop :=
  let after (n : Nat) : Prescaler := Nat.iterate Prescaler.cycle n Prescaler.start
  let divisor (code : Nat) : Nat := [1024, 512, 256, 128, 64, 32].getD code 0
  (∀ n code, code ≤ 5 → ((after n).tap code = true ↔ divisor code ≤ 2 * (n % divisor code))) ∧
    (∀ n, (after n).running = true ∧
      ((after n).ticks = true ↔ (n + 1) % 98304 ∈ [19661, 2 * 19661, 3 * 19661, 4 * 19661, 0])) ∧
    (∀ (s : State) (g : Seg), s.bitClock g = s.prescaler.tap (s.segSetup g).rate ∧
      (s.runState = .starting .loading → s.setupClock = some (s.prescaler.tap 0))) ∧
    ∀ s : State, s.pending = [] → s.prescaler.running = false → s.prescaler.ticks = false ∧ step s = .next s

/-- The levels of a line (R49, R50). It is dominant where any station drives dominant. The part drives it dominant in a break of
its own and in the 0 bits of the frame that it is sending, and in no other bit time: not in the idle wait, the acknowledge
slot, a reply, the lead-in, the slots and the class window, and no frame in STARTING, unfitted, OFF or FAULT. Whether a break
of its own runs on in an engine that has become OFF is open (log 29). The filtered level follows the raw one once that has
held a new value for the cycles of a quarter bit time, 256, 128, 64, 32, 16 or 8 by rate code, and drops a shorter pulse. That
the filters of a fitted segment count the prescaler's cycles, and that both runs are then 0, is the model's (logs 5 and 36). -/
def Obligations.LinesAreWiredAndFollowAfterAQuarterBit : Prop :=
  (∀ (s : State) (g : Seg) (k : Nat) (nodes : List Level),
    (s.onWire g k nodes = .dominant ↔ s.drives g k = .dominant ∨ .dominant ∈ nodes) ∧
    let breaks : Prop :=
      (s.engine g).line.driving = true ∧ s.runState.isStarting = false ∧ (s.segSetup g).fitted = true ∧
        (s.engine g).state ≠ .fault ∧ ((s.engine g).state = .off → Config.breakOutlastsOff g = true)
    (s.drives g k = .dominant ↔ breaks ∨
      (¬ s.silenced g ∧ ∃ a, (s.engine g).line.attempt = some a ∧ a.frame.bits[k]? = some false ∧
        ((a.phase = .address ∧ (a.frame.function.addressed = true → k < 11)) ∨ (a.phase = .body ∧ 11 ≤ k)))) ∧
    (s.raw g = .dominant ↔ breaks ∨ (s.engine g).line.pin = .dominant)) ∧
  ∀ (s : State) (g : Seg), s.prescaler.running = true → (s.segSetup g).fitted = true → (s.segSetup g).rate ≤ 5 →
    let l := (s.engine g).line
    let quarter : Nat := [256, 128, 64, 32, 16, 8].getD (s.segSetup g).rate 0
    let after (n : Nat) : Line := ((Nat.iterate State.cycle n s).engine g).line
    (s.raw g = l.level → ∀ n, 1 ≤ n → after n = { l with held := 0 }) ∧
    (s.raw g ≠ l.level → l.held = 0 → ∀ n,
      (n < quarter → after n = { l with held := n }) ∧
      (quarter ≤ n → after n = { l with level := s.raw g, held := 0, recessiveRun := 0, dominantRun := 0 }))

/-! ### What every step keeps -/

/-- No generation is ever 0 (R12). -/
def Obligations.GenerationsNeverBecomeZero : Prop :=
  ∀ s t : State, s.generationsRun → step s = .next t → t.generationsRun

/-- A FREE entry always holds the values of R13. -/
def Obligations.FreeEntriesStayBare : Prop :=
  ∀ s t : State, s.freeEntriesBare → step s = .next t → t.freeEntriesBare

/-- Silence, absent age, stride and stride counter stay in their ranges, and an absent age above 0 stands only in ABSENT and in
RETIRING from ABSENT (R6, R7, R8). -/
def Obligations.EntryCountsStayInRange : Prop :=
  ∀ s t : State, s.countsInRange → s.agesWhileAbsent → step s = .next t → t.countsInRange ∧ t.agesWhileAbsent

/-- No step makes two non-FREE entries hold one identity (R2). -/
def Obligations.IdentitiesStayDistinct : Prop :=
  ∀ s t : State, s.identitiesDiffer → step s = .next t → t.identitiesDiffer

/-- Entries and address maps agree after every step (R15); the soundness of the engines is kept with it. -/
def Obligations.AddressMapsStayInAgreement : Prop :=
  ∀ s t : State, s.mapsAgree → s.enginesSound → step s = .next t → t.mapsAgree ∧ t.enginesSound

/-- A SEEDED or PRESENT entry's silence stays below its segment's threshold (R113). -/
def Obligations.SilenceStaysBelowThreshold : Prop :=
  ∀ s t : State, s.silencesBelowThreshold → step s = .next t → t.silencesBelowThreshold

/-- No segment queue grows past 8 requests (R77), and no resolution list comes to hold a handle twice (R140). -/
def Obligations.QueuesAndResolutionListsStayBounded : Prop :=
  ∀ s t : State, s.queuesBounded → s.resolutionsDistinct → step s = .next t → t.queuesBounded ∧ t.resolutionsDistinct

/-- Request slots, the ports' lists, the queues and the engines' requests stay in agreement (R168, R169, R172). -/
def Obligations.SlotsAndListsStayInAgreement : Prop :=
  ∀ s t : State, s.slotsAgree → step s = .next t → t.slotsAgree

/-- A change set comes to hold only handles that its port watches (R186). -/
def Obligations.ChangeSetsHoldOnlyWatchedHandles : Prop :=
  ∀ s t : State, s.changeSetsWatched → step s = .next t → t.changeSetsWatched

/-- The seeding window stays within RUN (R209), and QUIET stays drained (R204). -/
def Obligations.SeedingWindowStaysInRunAndQuietStaysDrained : Prop :=
  ∀ s t : State, s.seedingInRun → s.quietDrained → step s = .next t → t.seedingInRun ∧ t.quietDrained

/-- The state after power is applied is in SETTLING, with every line released and attention released (R189, R190), and has every
property above. The values that SETTLING leaves standing are the model's choice (log 4). -/
def Obligations.PowerOnStateHasEveryProperty : Prop :=
  let s := State.reset
  s.runState = .starting (.settling false) ∧ s.pending = [] ∧ s.prescaler.running = false ∧
    (∀ g : Seg, (s.engine g).line.attempt = none ∧ (s.engine g).line.driving = false) ∧
    (∀ p : PortId, s.attention p = false) ∧
    s.generationsRun ∧ s.freeEntriesBare ∧ s.countsInRange ∧ s.agesWhileAbsent ∧ s.identitiesDiffer ∧ s.mapsAgree ∧
    s.enginesSound ∧ s.silencesBelowThreshold ∧ s.queuesBounded ∧ s.resolutionsDistinct ∧ s.slotsAgree ∧
    s.changeSetsWatched ∧ s.seedingInRun ∧ s.quietDrained

/-! ### Exchanges -/

/-- EXCHANGE_START composes the status byte of R209 and chooses the oldest COMPLETED response (R161, R162); in SETTLING the
byte's lower fields are fixed and fill is sent (R189). What the part then shifts out is the status byte, the response's frame if
one is chosen, and 0x00 for as long as the host clocks, each byte most significant bit first (R160, R162). Nothing else differs.
-/
def Obligations.ExchangeStartComposesStatusByte : Prop :=
  ∀ (s : State) (p : PortId), (s.port p).exchange = none →
    ∃ x : Exchange, exec (.exchangeStart p) s = .next (s.setPort p { s.port p with exchange := some x }) ∧
      (∀ n k, k < 8 →
        x.bitAt (8 * n + k) =
          ((x.status :: (match x.response with | some r => responseBytes r | none => [])).getD n 0x00).getLsbD (7 - k)) ∧
      (s.runState.isSettling = false →
        x.status.toNat / 8 = 5 * s.reportedCondition + outcomeCode (s.port p).previous ∧ x.status.toNat / 8 ≤ 24 ∧
          (x.status.getLsbD 2 = true ↔ s.runState.isStarting = false ∧ (s.port p).attends) ∧
          (x.status.getLsbD 1 = true ↔ ∃ (i : SlotIx) (q : Request) (r : Response), s.slot p i = .completed q r) ∧
          (x.status.getLsbD 0 = true ↔ ∃ i : SlotIx, s.slot p i = .free) ∧
          ((s.port p).completed = [] → x.response = none ∧ x.slot = none) ∧
          ∀ (i : SlotIx) (rest : List SlotIx) (q : Request) (r : Response), (s.port p).completed = i :: rest →
            s.slot p i = .completed q r → x.response = some r ∧ x.slot = some i) ∧
      (s.runState.isSettling = true →
        x.status.toNat = 8 * outcomeCode (s.port p).previous + 1 ∧ x.response = none ∧ x.slot = none)

/-- The end of an exchange in which the host sent no request, that is less than a byte or a first byte of 0x00: a response whose
last bit was clocked through, and whose slot still holds it, is removed, but for an exchange that ends in SETTLING (R163, R177);
otherwise nothing of the slots changes. The outcome is NONE (R165, R167). -/
def Obligations.ExchangeEndRemovesDeliveredResponse : Prop :=
  ∀ (s : State) (p : PortId) (x : Exchange) (sent : List Bool), (s.port p).exchange = some x →
    (sent.length < 8 ∨ ∃ more, sent = byteBits 0 ++ more) →
    (∀ (i : SlotIx) (q : Request) (r : Response), x.slot = some i → x.response = some r → s.slot p i = .completed q r →
      8 * (8 + r.body.length) ≤ sent.length → s.runState.isSettling = false →
      exec (.exchangeEnd p sent) s = .next (s.setPort p
        { s.port p with
          slots := (s.port p).slots.set i .free, completed := (s.port p).completed.filter (· != i), previous := .none,
          exchange := none })) ∧
    ((x.slot = none ∨ x.response = none ∨ s.runState.isSettling = true ∨
        ∃ (i : SlotIx) (r : Response), x.slot = some i ∧ x.response = some r ∧
          ((s.slot p i).response? ≠ some r ∨ sent.length < 8 * (8 + r.body.length))) →
      exec (.exchangeEnd p sent) s = .next (s.setPort p { s.port p with previous := .none, exchange := none }))

/-- A frame that an exchange does not take changes nothing but the previous outcome, beside the removal of the response that the
exchange delivered, which comes first (R163, R165, R166). `bytes` are the whole bytes that the host sent, `cut` the bits of a
last one cut short. -/
def Obligations.RefusedFramesChangeOnlyPreviousOutcome : Prop :=
  ∀ (s : State) (p : PortId) (x : Exchange) (bytes : List Byte) (cut : List Bool), (s.port p).exchange = some x →
    cut.length < 8 →
    let sent : List Bool := bytes.flatMap byteBits ++ cut
    let y := s.delivered p x sent.length
    let ends (o : ExchangeOutcome) : Prop :=
      exec (.exchangeEnd p sent) s = .next (s.setPort p { y with previous := o, exchange := none })
    (∀ k more, bytes = k :: more → k ≠ 0 → kindOf k = none → ends .badFrame) ∧
    (∀ k, bytes = [k] → k ≠ 0 → ends .badFrame) ∧
    (∀ k tag, bytes = [k, tag] → k ≠ 0 → ends .badFrame) ∧
    (∀ k tag len more, bytes = k :: tag :: len :: more → k ≠ 0 → 40 < len.toNat ∨ more.length < len.toNat + 2 →
      ends .badFrame) ∧
    (∀ k tag len body hi lo more, bytes = k :: tag :: len :: (body ++ hi :: lo :: more) → k ≠ 0 → body.length = len.toNat →
      (hi ++ lo : BitVec 16) ≠ crc (k :: tag :: len :: body) → ends .badFrame) ∧
    (∀ k tag body more, bytes = requestFrame k tag body ++ more → body.length ≤ 40 →
      (s.runState.isStarting = true ∨ (s.runState ≠ .run ∧ k ≠ .wake) → ends .notNow) ∧
      (s.runState = .run → k ≠ .portReset → (∀ i : SlotIx, y.slots[i] ≠ .free) → ends .full))

/-- A request frame taken in RUN takes a FREE slot as WAITING, at the tail of the WAITING list, with the outcome TAKEN (R165,
R169); the slot of a response that the same exchange delivered is FREE by then (R163, R165). A WAKE taken in QUIETING or QUIET
returns the run state to RUN before it takes its slot, and records the state it ended; when no slot is FREE the run state
returns to RUN all the same, with the outcome FULL (R206). Bits after the frame are not read (R164). -/
def Obligations.TakenFrameWaitsInFreeSlot : Prop :=
  ∀ (s : State) (p : PortId) (x : Exchange) (k : ReqKind) (tag : Byte) (body : List Byte) (more : List Bool) (w : Woke),
    (s.port p).exchange = some x → k ≠ .portReset → body.length ≤ 40 →
    (s.runState = .run ∧ w = .run) ∨
      (k = .wake ∧ ((s.runState = .quieting ∧ w = .quieting) ∨ (s.runState = .quiet ∧ w = .quiet))) →
    let sent : List Bool := (requestFrame k tag body).flatMap byteBits ++ more
    let y := s.delivered p x sent.length
    ((∀ i : SlotIx, y.slots[i] ≠ .free) →
      exec (.exchangeEnd p sent) s =
        .next { s.setPort p { y with previous := .full, exchange := none } with runState := .run }) ∧
    ((∃ i : SlotIx, y.slots[i] = .free) →
      ∃ i : SlotIx, y.slots[i] = .free ∧
        exec (.exchangeEnd p sent) s = .next
          { s.setPort p
              { y with
                slots := y.slots.set i (.waiting { kind := k, tag := tag, body := body, woke := w })
                waiting := y.waiting ++ [i], previous := .taken, exchange := none } with
            runState := .run })

/-- PORT_RESET, in the exchange end that takes it, empties its port, drops its claims and watches, its queued and attached
requests, and leaves its request on a line without a slot; the entries of its queued MOVEs and RETIREs return, and the other
port is told of those it watches. The other port's slots and lists, and every other entry, stay, but for the port's claims and
watches (R28, R94, R100, R175, R176, R188). -/
def Obligations.PortResetEmptiesItsPort : Prop :=
  ∀ (s : State) (p : PortId) (x : Exchange) (tag : Byte) (body : List Byte) (more : List Bool),
    (s.port p).exchange = some x → s.runState = .run → body.length ≤ 40 →
    let left : State :=
      { s with
        entries := s.entries.map fun (e : Entry) => { e.setWatch p false with claim := if e.claim = some p then none else e.claim } }
    let given (h : Handle) : Prop := ∃ g, ∃ q ∈ (s.engine g).queue, q.port = p ∧ q.holds h
    ∃ t, exec (.exchangeEnd p ((requestFrame .portReset tag body).flatMap byteBits ++ more)) s = .next t ∧
      t.runState = .run ∧ t.setup = s.setup ∧ t.seeding = s.seeding ∧ t.prescaler = s.prescaler ∧ t.freeCount = s.freeCount ∧
      (∀ i : SlotIx, t.slot p i = .free) ∧ (t.port p).waiting = [] ∧ (t.port p).completed = [] ∧ (t.port p).waitsFor = none ∧
      (t.port p).previous = .taken ∧ (t.port p).exchange = none ∧
      (t.port p).notices.sticky = 0 ∧ (t.port p).notices.mask = 0x801 ∧
      (∀ h : Handle, (t.port p).notices.changed[h] = false) ∧
      (∃ n : NoticeUnit, t.port p.other = { s.port p.other with notices := n }) ∧
      left.returnsTold t s.threshold given p.other 0 ∧
      left.returnsTo t s.threshold given ∧
      ∀ g : Seg,
        t.engine g =
          { s.engine g with
            queue := (s.engine g).queue.filter (fun q => q.port != p)
            activity := (s.engine g).activity.map fun a =>
              { a with owner := a.owner.map fun o => if o.port = p then { o with slot := none } else o }
            pass := { (s.engine g).pass with attached := (s.engine g).pass.attached.filter (fun y => y.1 != p) } }

/-! ### Lookups -/

/-- DESCRIBE (R174), FIND_ID (R22) and FIND_ADDR (R23). That an OK answer of FIND_ID or FIND_ADDR carries the generation of the
entry it names, as R21 gives it, and not the 0 of R173 is the model's reading (log 39). -/
def Obligations.DescribeFindIdAndFindAddrAnswer : Prop :=
  (∀ (s : State) (p : PortId) (i : SlotIx) (r : Request) (rest : List SlotIx), s.heads p i r rest → r.kind = .describe →
     (r.body ≠ [] → exec (.describe p) s = .next (s.answered p i r rest .badRequest 0 [])) ∧
     (r.body = [] →
       ∃ m : Byte, (∀ g : Seg, m.getLsbD g.val = (s.segSetup g).fitted) ∧ m.toNat < 16 ∧
         exec (.describe p) s = .next (s.answered p i r rest .ok 0
           [0xD6, 0x12, 0x01, 128, m, if s.setup.loaded then 0 else 1, match p with | .a => 0 | .b => 1]))) ∧
  (∀ (s : State) (p : PortId) (i : SlotIx) (r : Request) (rest : List SlotIx) (x : Ident), s.heads p i r rest →
     r.kind = .findId → r.body = identBytes x →
     (x = 0 ∨ x = BitVec.allOnes 48 → exec (.findId p) s = .next (s.answered p i r rest .badRequest 0 [])) ∧
     (x ≠ 0 → x ≠ BitVec.allOnes 48 →
       ((∀ h : Handle, (s.entry h).state = .free ∨ (s.entry h).identity ≠ x) →
         exec (.findId p) s = .next (s.answered p i r rest .notFound 0 [])) ∧
       ∀ h : Handle, (s.entry h).state ≠ .free → (s.entry h).identity = x →
         (∀ k : Handle, (s.entry k).state ≠ .free → (s.entry k).identity = x → k = h) →
         exec (.findId p) s =
           .next (s.answered p i r rest .ok (s.entry h).generation [byte h.val, stateCode (s.entry h).state]))) ∧
  (∀ (s : State) (p : PortId) (i : SlotIx) (r : Request) (rest : List SlotIx) (b a : Byte), s.heads p i r rest →
     r.kind = .findAddr → r.body = [b, a] →
     (3 < b.toNat ∨ a = 0 ∨ 200 < a.toNat → exec (.findAddr p) s = .next (s.answered p i r rest .badRequest 0 [])) ∧
     ∀ g : Seg, b = byte g.val → a ≠ 0 → a.toNat ≤ 200 →
       exec (.findAddr p) s = .next
         (match s.mapSlot g a with
          | .held h =>
            s.answered p i r rest .ok (s.entry h).generation [byte h.val, stateCode (s.entry h).state, 0]
          | .reserved h =>
            s.answered p i r rest .ok (s.entry h).generation [byte h.val, stateCode (s.entry h).state, 1]
          | .joinHold | .empty => s.answered p i r rest .notFound 0 []))

/-- LIST (R24): the first 12 matches from the start handle on, and the next-cursor. -/
def Obligations.ListCollectsTwelveMatches : Prop :=
  ∀ (s : State) (p : PortId) (i : SlotIx) (r : Request) (rest : List SlotIx) (start seg set opt c : Byte),
    s.heads p i r rest → r.kind = .list → r.body = [start, seg, set, opt, c] →
    (128 < start.toNat ∨ (3 < seg.toNat ∧ seg ≠ 0xFF) ∨ set = 0 ∨ set.getLsbD 7 = true ∨ 1 < opt.toNat →
      exec (.list p) s = .next (s.answered p i r rest .badRequest 0 [])) ∧
    (start.toNat ≤ 128 → seg.toNat ≤ 3 ∨ seg = 0xFF → set ≠ 0 → set.getLsbD 7 = false → opt.toNat ≤ 1 →
      let found (h : Handle) : Prop :=
        start.toNat ≤ h.val ∧ set.getLsbD (stateCode (s.entry h).state).toNat = true ∧
          (seg = 0xFF ∨ ((s.entry h).state ≠ .free ∧ (s.entry h).segment.val = seg.toNat)) ∧
          (opt = 1 ∨ ((s.entry h).state ≠ .free ∧ (s.entry h).cls = c))
      ∃ hs : List Handle,
        (∀ h ∈ hs, found h) ∧ hs.Pairwise (· < ·) ∧ hs.length ≤ 12 ∧
          (hs.length < 12 → ∀ h, found h → h ∈ hs) ∧
          (∀ h k, k ∈ hs → found h → h < k → h ∈ hs) ∧
          ∃ cursor : Byte,
            (hs.length < 12 → cursor = 128) ∧ (∀ h, hs.length = 12 → hs.getLast? = some h → cursor = byte (h.val + 1)) ∧
            exec (.list p) s = .next (s.answered p i r rest .ok 0
              ([byte hs.length, cursor] ++
                hs.flatMap fun h => [byte h.val, stateCode (s.entry h).state, (s.entry h).generation])))

/-- READ_ENTRY (R25, R214): the 23 bytes of the layout, with an absent field sent as 0. -/
def Obligations.ReadEntryReportsEveryField : Prop :=
  ∀ (s : State) (p : PortId) (i : SlotIx) (r : Request) (rest : List SlotIx) (b : Byte), s.heads p i r rest →
    r.kind = .readEntry → r.body = [b] →
    (127 < b.toNat → exec (.readEntry p) s = .next (s.answered p i r rest .badHandle 0 [])) ∧
    ∀ h : Handle, b = byte h.val →
      let e := s.entry h
      ∃ flags prior target force : Byte,
        flags.toNat < 32 ∧ (flags.getLsbD 0 = e.label.isSome) ∧ (flags.getLsbD 1 = e.stride.isSome) ∧
        (∀ pr t, e.state = .moving pr t → flags.getLsbD 2 = true ∧ flags.getLsbD 3 = true ∧ flags.getLsbD 4 = false ∧
          prior = stateCode (priorState pr) ∧ target = t ∧ force = 0) ∧
        (∀ pr f, e.state = .retiring pr f → flags.getLsbD 2 = true ∧ flags.getLsbD 3 = false ∧ flags.getLsbD 4 = true ∧
          prior = stateCode (priorState pr) ∧ target = 0 ∧ force = if f then 1 else 0) ∧
        ((∀ pr t, e.state ≠ .moving pr t) → (∀ pr f, e.state ≠ .retiring pr f) →
          flags.toNat < 4 ∧ prior = 0 ∧ target = 0 ∧ force = 0) ∧
        exec (.readEntry p) s = .next (s.answered p i r rest .ok e.generation
          ([byte h.val, stateCode e.state] ++ identBytes e.identity ++ [e.cls, byte e.segment.val, e.address, flags] ++
            bytes16 (e.label.getD 0) ++
            [(e.stride.map fun st => byte st.value).getD 0, (e.stride.map fun st => byte st.counter).getD 0, byte e.silence,
             byte e.age, (match e.claim with | none => 0 | some .a => 1 | some .b => 2),
             (if e.watchA then 1 else 0) + (if e.watchB then 2 else 0), prior, target, force]))

/-! ### Checks -/

/-- A body that does not suit its kind, by its length, by a field of a line request out of its range, or by a RESTART's kind, is
answered BAD_REQUEST with generation 0 and no body, and nothing else changes (R30, R173, R211). The fields of the other kinds
stand in their own statements. That either RESTART row answers a RESTART of neither kind is the model's choice (log 10), and so
is that a WAKE with a body dispatched in QUIETING leaves the run state QUIETING (log 35). -/
def Obligations.UnsuitedBodyIsBadRequest : Prop :=
  ∀ (s : State) (p : PortId) (i : SlotIx) (r : Request) (rest : List SlotIx), s.heads p i r rest →
    let bad (c : Instr) : Prop := exec c s = .next (s.answered p i r rest .badRequest 0 [])
    (∀ c, r.kind.command p = some c → r.body.length < r.kind.bodyLengths.1 ∨ r.kind.bodyLengths.2 < r.body.length → bad c) ∧
    (r.kind = .restart → (∀ b, r.body = [b] → b ≠ 1 ∧ b ≠ 2) → bad (.restartFull p) ∧ bad (.restartRetain p)) ∧
    (∀ b x item len, r.kind = .nodeRead → r.body = [b, x, item, len] → len = 0 ∨ 32 < len.toNat → bad (.nodeRead p)) ∧
    (∀ b more, r.kind = .broadcast → r.body = b :: more → 3 < b.toNat → bad (.broadcast p)) ∧
    (∀ b, r.kind = .discover → r.body = [b] → 3 < b.toNat → bad (.discover p)) ∧
    (∀ b t x, r.kind = .move → r.body = [b, t, x] → t = 0 ∨ 200 < t.toNat → bad (.move p)) ∧
    ∀ b f x, r.kind = .retire → r.body = [b, f, x] → 1 < f.toNat → bad (.retire p)

/-- A request that names an entry is answered by the first common check that it fails, and changes nothing else (R29, R31 to
R35). That an equal expected generation passes also after a wrap from 255 is the model's choice (log 37). -/
def Obligations.FirstFailedCheckAnswers : Prop :=
  ∀ (s : State) (p : PortId) (i : SlotIx) (r : Request) (rest : List SlotIx) (b x : Byte) (st : Status) (gen : Byte)
    (bd : List Byte), s.heads p i r rest →
    (s.firstFailure p b true (some x) = some (st, gen, bd) →
      (∀ opt l1 l0, r.kind = .setLabel → r.body = [b, x, opt, l1, l0] → opt.toNat ≤ 1 →
        exec (.setLabel p) s = .next (s.answered p i r rest st gen bd)) ∧
      (∀ n, r.kind = .setStride → r.body = [b, x, n] → 1 ≤ n.toNat → n.toNat ≤ 15 →
        exec (.setStride p) s = .next (s.answered p i r rest st gen bd)) ∧
      (∀ item data, r.kind = .nodeWrite → r.body = b :: x :: item :: data → 1 ≤ data.length → data.length ≤ 32 →
        exec (.nodeWrite p) s = .next (s.answered p i r rest st gen bd)) ∧
      (∀ t, r.kind = .move → r.body = [b, t, x] → 1 ≤ t.toNat → t.toNat ≤ 200 →
        exec (.move p) s = .next (s.answered p i r rest st gen bd)) ∧
      ∀ f, r.kind = .retire → r.body = [b, f, x] → f.toNat ≤ 1 →
        exec (.retire p) s = .next (s.answered p i r rest st gen bd)) ∧
    (s.firstFailure p b false (some x) = some (st, gen, bd) →
      ∀ item len, r.kind = .nodeRead → r.body = [b, x, item, len] → 1 ≤ len.toNat → len.toNat ≤ 32 →
        exec (.nodeRead p) s = .next (s.answered p i r rest st gen bd))

/-! ### Host changes -/

/-- SET_LABEL (R38) and SET_STRIDE (R41): the label written or cleared; a stride of 2 to 15 set with its counter at 0, or 1,
which makes both absent. The change is one directory event, whose generation moves exactly when the label or the stride differs.
-/
def Obligations.LabelAndStrideChangesMoveTheGeneration : Prop :=
  (∀ (s : State) (p : PortId) (i : SlotIx) (r : Request) (rest : List SlotIx) (h : Handle) (x opt l1 l0 : Byte),
    s.heads p i r rest → r.kind = .setLabel → r.body = [byte h.val, x, opt, l1, l0] →
    (1 < opt.toNat → exec (.setLabel p) s = .next (s.answered p i r rest .badRequest 0 [])) ∧
    (opt = 0 ∨ opt = 1 → s.firstFailure p (byte h.val) true (some x) = none →
      let e := s.entry h
      let label : Option (BitVec 16) := if opt = 1 then none else some (l1 ++ l0)
      (label = e.label → exec (.setLabel p) s = .next (s.answered p i r rest .ok e.generation [])) ∧
      (label ≠ e.label →
        exec (.setLabel p) s =
          .next ((s.moved h { e with label := label }).answered p i r rest .ok (generationAfter e.generation) [])))) ∧
  ∀ (s : State) (p : PortId) (i : SlotIx) (r : Request) (rest : List SlotIx) (h : Handle) (x n : Byte),
    s.heads p i r rest → r.kind = .setStride → r.body = [byte h.val, x, n] →
    (n = 0 ∨ 15 < n.toNat → exec (.setStride p) s = .next (s.answered p i r rest .badRequest 0 [])) ∧
    (1 ≤ n.toNat → n.toNat ≤ 15 → s.firstFailure p (byte h.val) true (some x) = none →
      let e := s.entry h
      let stride : Option Stride := if n = 1 then none else some { value := n.toNat, counter := 0 }
      (stride.map Stride.value = e.stride.map Stride.value →
        exec (.setStride p) s =
          .next ((s.setEntry h { e with stride := stride }).answered p i r rest .ok e.generation [])) ∧
      (stride.map Stride.value ≠ e.stride.map Stride.value →
        exec (.setStride p) s =
          .next ((s.moved h { e with stride := stride }).answered p i r rest .ok (generationAfter e.generation) [])))

/-- CLAIM and UNCLAIM (R39, R40): the first failure of the checks 1 to 3 answers, then an entry claimed by the other port
answers CLAIMED with the holder; otherwise the claim becomes the requesting port's or none. No generation moves and no notice
unit is told. WATCH and UNWATCH (R43, R44): taken on any handle 0 to 127; the port joins or leaves the watch set, and UNWATCH
takes the handle out of the port's change set. -/
def Obligations.ClaimsAndWatchesAreWritten : Prop :=
  (∀ (s : State) (p : PortId) (i : SlotIx) (r : Request) (rest : List SlotIx) (b : Byte), s.heads p i r rest → r.body = [b] →
     (∀ st gen bd, s.firstFailure p b true none = some (st, gen, bd) →
       (r.kind = .claim → exec (.claim p) s = .next (s.answered p i r rest st gen bd)) ∧
       (r.kind = .unclaim → exec (.unclaim p) s = .next (s.answered p i r rest st gen bd))) ∧
     ∀ h : Handle, b = byte h.val → s.firstFailure p b true none = none →
       (r.kind = .claim →
         exec (.claim p) s = .next ((s.setEntry h { s.entry h with claim := some p }).answered p i r rest .ok
           (s.entry h).generation [match p with | .a => 1 | .b => 2])) ∧
       (r.kind = .unclaim →
         exec (.unclaim p) s = .next ((s.setEntry h { s.entry h with claim := none }).answered p i r rest .ok
           (s.entry h).generation [0]))) ∧
  (∀ (s : State) (p : PortId) (i : SlotIx) (r : Request) (rest : List SlotIx) (b : Byte), s.heads p i r rest → r.body = [b] →
     (r.kind = .watch →
       (127 < b.toNat → exec (.watch p) s = .next (s.answered p i r rest .badHandle 0 [])) ∧
       ∀ h : Handle, b = byte h.val →
         let e := (s.entry h).setWatch p true
         exec (.watch p) s = .next ((s.setEntry h e).answered p i r rest .ok e.generation
           [(if e.watchA then 1 else 0) + (if e.watchB then 2 else 0)])) ∧
     (r.kind = .unwatch →
       (127 < b.toNat → exec (.unwatch p) s = .next (s.answered p i r rest .badHandle 0 [])) ∧
       ∀ h : Handle, b = byte h.val →
         let e := (s.entry h).setWatch p false
         exec (.unwatch p) s = .next (((s.setEntry h e).updPort p fun x =>
             { x with notices := { x.notices with changed := x.notices.changed.set h false } }).answered p i r rest .ok
           e.generation [(if e.watchA then 1 else 0) + (if e.watchB then 2 else 0)])))

/-! ### Notices -/

/-- GET_NOTICES (R183): its attention level is computed, like RESPONSE_READY, before the request's own completion, which R183
fixes for RESPONSE_READY only (the model's choice, log 15). GET_CHANGES (R187): the members with the lowest handles, up to 16,
leave the change set and are answered in ascending order with state and generation. -/
def Obligations.GetNoticesAndGetChangesReportTheUnit : Prop :=
  (∀ (s : State) (p : PortId) (i : SlotIx) (r : Request) (rest : List SlotIx), s.heads p i r rest → r.kind = .getNotices →
     (r.body ≠ [] → exec (.getNotices p) s = .next (s.answered p i r rest .badRequest 0 [])) ∧
     (r.body = [] →
       ∃ (m : BitVec 16) (att : Byte),
         (∀ k, m.getLsbD k = true ↔ k < 13 ∧ (s.port p).flagSet k) ∧
         ((att = 1 ∧ (s.port p).attends) ∨ (att = 0 ∧ ¬ (s.port p).attends)) ∧
         exec (.getNotices p) s = .next (s.answered p i r rest .ok 0
           (bytes16 m ++ bytes16 ((s.port p).notices.mask.setWidth 16) ++
             [att, byte (((s.port p).notices.changed.toList.filter id).length)])))) ∧
  (∀ (s : State) (p : PortId) (i : SlotIx) (r : Request) (rest : List SlotIx), s.heads p i r rest → r.kind = .getChanges →
     (r.body ≠ [] → exec (.getChanges p) s = .next (s.answered p i r rest .badRequest 0 [])) ∧
     (r.body = [] →
       let member (h : Handle) : Prop := (s.port p).notices.changed[h] = true
       ∃ (hs : List Handle) (left : Vector Bool 128),
         (∀ h ∈ hs, member h) ∧ hs.Pairwise (· < ·) ∧ hs.length ≤ 16 ∧ (hs.length < 16 → ∀ h, member h → h ∈ hs) ∧
         (∀ h k, k ∈ hs → member h → h < k → h ∈ hs) ∧
         (∀ h : Handle, left[h] = true ↔ member h ∧ h ∉ hs) ∧
         exec (.getChanges p) s =
           .next ((s.updPort p fun x => { x with notices := { x.notices with changed := left } }).answered p i r rest .ok 0
             (hs.flatMap fun h => [byte h.val, stateCode (s.entry h).state, (s.entry h).generation]))))

/-- CLEAR_NOTICES and SET_NOTICE_MASK (R184, R185): the named sticky flags are cleared, or the mask becomes the set; the answer
gives what stands once the request is COMPLETED (log 15). -/
def Obligations.NoticeSetsClearFlagsAndWriteMask : Prop :=
  ∀ (s : State) (p : PortId) (i : SlotIx) (r : Request) (rest : List SlotIx) (hi lo : Byte), s.heads p i r rest →
    r.body = [hi, lo] →
    (31 < hi.toNat →
      (r.kind = .clearNotices → exec (.clearNotices p) s = .next (s.answered p i r rest .badRequest 0 [])) ∧
      (r.kind = .setNoticeMask → exec (.setNoticeMask p) s = .next (s.answered p i r rest .badRequest 0 []))) ∧
    (hi.toNat ≤ 31 →
      let m : BitVec 13 := (hi ++ lo : BitVec 16).setWidth 13
      (r.kind = .clearNotices →
        ∃ (t : State) (f : BitVec 16) (att : Byte),
          exec (.clearNotices p) s = .next t ∧
          t = (s.updPort p fun x => { x with notices := { x.notices with sticky := x.notices.sticky &&& ~~~m } }).answered
            p i r rest .ok 0 (bytes16 f ++ [att]) ∧
          (∀ k, f.getLsbD k = true ↔ k < 13 ∧ (t.port p).flagSet k) ∧
          ((att = 1 ∧ (t.port p).attends) ∨ (att = 0 ∧ ¬ (t.port p).attends))) ∧
      (r.kind = .setNoticeMask →
        ∃ (t : State) (att : Byte),
          exec (.setNoticeMask p) s = .next t ∧
          t = (s.updPort p fun x => { x with notices := { x.notices with mask := m } }).answered p i r rest .ok 0
            (bytes16 (m.setWidth 16) ++ [att]) ∧
          ((att = 1 ∧ (t.port p).attends) ∨ (att = 0 ∧ ¬ (t.port p).attends))))

/-! ### Seeding -/

/-- SEED (R200, R201): the first check that fails answers; a SEED that passes fills the FREE entry with the lowest handle in one
directory event and makes its map slot HELD. That an answer which names an entry carries its generation, as R200 gives it, and
not the 0 of R173 is the model's reading (log 39). SEED_END (R202). -/
def Obligations.SeedFillsAndSeedEndCloses : Prop :=
  (∀ (s : State) (p : PortId) (i : SlotIx) (r : Request) (rest : List SlotIx) (x : Ident) (b a c ind l1 l0 : Byte),
     s.heads p i r rest → r.kind = .seed → r.body = identBytes x ++ [b, a, c, ind, l1, l0] →
     (x = 0 ∨ x = BitVec.allOnes 48 ∨ 3 < b.toNat ∨ a = 0 ∨ 200 < a.toNat ∨ 1 < ind.toNat →
       exec (.seed p) s = .next (s.answered p i r rest .badRequest 0 [])) ∧
     (x ≠ 0 → x ≠ BitVec.allOnes 48 → a ≠ 0 → a.toNat ≤ 200 → ind = 0 ∨ ind = 1 → ∀ g : Seg, b = byte g.val →
       (∀ st gen bd, s.seedFailure p g a = some (st, gen, bd) →
         exec (.seed p) s = .next (s.answered p i r rest st gen bd)) ∧
       (s.seedFailure p g a = none →
         (∀ h : Handle, (s.entry h).state ≠ .free → (s.entry h).identity = x →
           (∀ k : Handle, (s.entry k).state ≠ .free → (s.entry k).identity = x → k = h) →
           exec (.seed p) s = .next (s.answered p i r rest .identityClash (s.entry h).generation [byte h.val])) ∧
         ((∀ h : Handle, (s.entry h).state ≠ .free ∧ (s.entry h).identity ≠ x) →
           exec (.seed p) s = .next (s.answered p i r rest .directoryFull 0 [])) ∧
         ((∀ h : Handle, (s.entry h).state = .free ∨ (s.entry h).identity ≠ x) →
           ∀ h : Handle, (s.entry h).state = .free → (∀ k : Handle, k < h → (s.entry k).state ≠ .free) →
             exec (.seed p) s = .next (((s.setMap g a (.held h)).moved h
               { state := .seeded, generation := 0, identity := x, cls := c, segment := g, address := a,
                 label := if ind = 1 then some (l1 ++ l0) else none, stride := none, silence := 0, age := 0, claim := none,
                 watchA := (s.entry h).watchA, watchB := (s.entry h).watchB }).answered p i r rest .ok
               (generationAfter (s.entry h).generation) [byte h.val]))))) ∧
  (∀ (s : State) (p : PortId) (i : SlotIx) (r : Request) (rest : List SlotIx), s.heads p i r rest → r.kind = .seedEnd →
     (r.body ≠ [] → exec (.seedEnd p) s = .next (s.answered p i r rest .badRequest 0 [])) ∧
     (r.body = [] →
       (s.seeding = true → exec (.seedEnd p) s = .next ({ s with seeding := false }.answered p i r rest .ok 0 [])) ∧
       (s.seeding = false → exec (.seedEnd p) s = .next (s.answered p i r rest .wrongState 0 []))))

/-! ### Quiet operation -/

/-- QUIET enters QUIETING from RUN with the window closed, and is answered WRONG_STATE otherwise (R203); DRAIN_COMPLETE moves
QUIETING to QUIET when nothing is outstanding (R204); a WAKE dispatched in QUIETING or QUIET returns the run state to RUN and
answers the state it ended, and in RUN answers the state recorded when it was taken and changes nothing else (R206; log 11). A
WAKE with a body is answered BAD_REQUEST and leaves the run state as it is (log 35). -/
def Obligations.QuietAndWakeMoveTheRunState : Prop :=
  (∀ (s : State) (p : PortId) (i : SlotIx) (r : Request) (rest : List SlotIx), s.heads p i r rest → r.kind = .quiet →
    (r.body ≠ [] → exec (.quiet p) s = .next (s.answered p i r rest .badRequest 0 [])) ∧
    (r.body = [] → s.runState ≠ .run ∨ s.seeding = true →
      exec (.quiet p) s = .next (s.answered p i r rest .wrongState 0 [])) ∧
    (r.body = [] → s.runState = .run → s.seeding = false →
      exec (.quiet p) s = .next ({ s with runState := .quieting }.answered p i r rest .ok 0 []))) ∧
  (∀ s : State,
    let outstanding : Prop :=
      (∃ (p : PortId) (i : SlotIx) (r : Request),
        s.slot p i = .waiting r ∨ s.slot p i = .dispatched r ∨ s.slot p i = .onLine r) ∨
      ∃ g : Seg, (s.engine g).queue ≠ [] ∨
        ∃ a ∈ (s.engine g).activity, ∃ o ∈ a.owner, o.slot = none
    (s.runState = .quieting → ¬ outstanding → exec .drainComplete s = .next { s with runState := .quiet }) ∧
    (s.runState ≠ .quieting ∨ outstanding → exec .drainComplete s = .next s)) ∧
  ∀ (s : State) (p : PortId) (i : SlotIx) (r : Request) (rest : List SlotIx), s.heads p i r rest → r.kind = .wake →
    (r.body ≠ [] → exec (.wake p) s = .next (s.answered p i r rest .badRequest 0 [])) ∧
    (r.body = [] →
      (s.runState = .quieting → exec (.wake p) s = .next ({ s with runState := .run }.answered p i r rest .ok 0 [2])) ∧
      (s.runState = .quiet → exec (.wake p) s = .next ({ s with runState := .run }.answered p i r rest .ok 0 [3])) ∧
      (s.runState = .run →
        exec (.wake p) s = .next (s.answered p i r rest .ok 0
          [match r.woke with | .run => 1 | .quieting => 2 | .quiet => 3])))

/-! ### Restarts -/

/-- RESTART(FULL) at its dispatch and the end of settling both take the clearing (R191, R192, R196); only the end of settling
starts the prescaler, from its starting position (R208). -/
def Obligations.ClearingEmptiesThePart : Prop :=
  (∀ (s : State) (p : PortId) (i : SlotIx) (r : Request) (rest : List SlotIx), s.heads p i r rest → r.kind = .restart →
    r.body = [0x01] →
    ∃ t, exec (.restartFull p) s = .next t ∧ s.clearedTo t ∧ t.prescaler = s.prescaler) ∧
  ∀ (s : State) (n : Nat),
    (s.runState = .starting (.settling true) → 4096 ≤ n →
      ∃ t, exec (.settlingComplete n) s = .next t ∧ s.clearedTo t ∧ t.prescaler = Prescaler.start) ∧
    (s.runState ≠ .starting (.settling true) ∨ n < 4096 → exec (.settlingComplete n) s = .next s)

/-- RESTART(RETAIN) (R27, R71, R99, R188, R197). An attempt from ADDRESS onwards is cut off with a break; whether the break
runs in an engine that becomes OFF is open, and that the line's levels and runs stay as they stand in this event is the
model's choice (log 29). That the run state becomes RUN from QUIETING too, as R189 and R197 give it against the table of R177,
is the model's reading (log 38). -/
def Obligations.RetainRestartKeepsTheDirectory : Prop :=
  ∀ (s : State) (p : PortId) (i : SlotIx) (r : Request) (rest : List SlotIx), s.heads p i r rest → r.kind = .restart →
    r.body = [0x02] →
    ∃ t, exec (.restartRetain p) s = .next t ∧
      t.runState = .run ∧ t.seeding = false ∧ t.setup = s.setup ∧ t.prescaler = s.prescaler ∧ t.pending = s.pending ∧
      t.freeCount = s.freeCount ∧
      (∀ h : Handle, t.entry h = (s.entry h).kept) ∧
      (∀ (g : Seg) (a : Byte), t.mapSlot g a = match s.mapSlot g a with | .held h => .held h | _ => .empty) ∧
      (∀ q : PortId,
        (∀ j : SlotIx, t.slot q j = .free) ∧ (t.port q).waiting = [] ∧ (t.port q).completed = [] ∧
        (t.port q).waitsFor = none ∧ (t.port q).previous = (s.port q).previous ∧
        (t.port q).exchange = (s.port q).exchange.map (fun x => { x with slot := none }) ∧
        (t.port q).notices.mask = (s.port q).notices.mask ∧
        (t.port q).notices.sticky = (s.port q).notices.sticky ||| 0x800 ∧
        ∀ h : Handle, (t.port q).notices.changed[h] = true ↔
          (s.port q).notices.changed[h] = true ∨
            ((s.entry h).watches q = true ∧ (t.entry h).state ≠ (s.entry h).state)) ∧
      ∀ g : Seg,
        (t.engine g).settings = (s.engine g).settings ∧ (t.engine g).cursor = (s.engine g).cursor ∧
        (t.engine g).timer = (s.engine g).timer ∧ (t.engine g).parked = (s.engine g).parked ∧
        (t.engine g).lastServed = (s.engine g).lastServed ∧
        (t.engine g).queue = [] ∧ (t.engine g).resolution = [] ∧ (t.engine g).pass.active = false ∧
        (t.engine g).pass.attached = [] ∧ (t.engine g).pollDue = false ∧ (t.engine g).discoveryDue = false ∧
        (t.engine g).expiries = 0 ∧ (t.engine g).tookQueue = false ∧ (t.engine g).offTaken = false ∧ (t.engine g).activity = none ∧
        (t.engine g).line = { (s.engine g).line with attempt := none, driving := (t.engine g).line.driving } ∧
        ((t.engine g).line.driving = true ↔
          ((s.engine g).line.driving = true ∨ ∃ a, (s.engine g).line.attempt = some a ∧ a.phase ≠ .idleWait) ∧
            ((t.engine g).state = .off → Config.breakOutlastsOff g = true)) ∧
        (t.engine g).state =
          (match (s.engine g).state with
           | .transaction | .contest => if (s.engine g).settings.on then .idle else .off
           | .off => .off | .idle => .idle | .fault => .fault)

/-- SETUP_READ_END (R73, R98, R101, R188, R193 to R195, R216, R217): in LOADING the part drives the read command 0xC6 and from
the 9th clock on releases the setup data line, whose levels are then `line`; in every other phase of STARTING it is released
(that it is so out of STARTING too is the model's, log 24). A high answer bit, the whole read, gives the defaults; a low one
is followed by the 144 bits of an image, its 18 bytes most significant bit first, and the setup is that of an accepted image,
or the defaults. The part enters RUN with the window open. Levels that make no whole read change nothing (log 24). The intake
mode of an unfitted segment stays open (log 8), so that only fitted segments' modes are stated. -/
def Obligations.SetupReadEndEntersRun : Prop :=
  (∀ (s : State) (k : Nat),
    (s.runState = .starting .loading →
      (1 ≤ k → k ≤ 8 → s.setupData k = some ((0xC6#8).getLsbD (8 - k))) ∧ (9 ≤ k → s.setupData k = none)) ∧
    (s.runState ≠ .starting .loading → s.setupData k = none)) ∧
  (∀ (s : State) (line : List Bool), line ≠ [true] → (∀ bits, line = false :: bits → bits.length ≠ 144) →
    exec (.setupReadEnd line) s = .next s) ∧
  ∀ (s : State) (image : Option Image), s.runState = .starting .loading →
    let line : List Bool := match image with | none => [true] | some m => false :: m.toList.flatMap byteBits
    ∃ t, exec (.setupReadEnd line) s = .next t ∧
      t.runState = .run ∧ t.seeding = true ∧ t.entries = s.entries ∧ t.maps = s.maps ∧ t.prescaler = s.prescaler ∧
      t.pending = s.pending ∧ t.freeCount = s.freeCount ∧
      (t.setup.loaded = true ↔ ∃ m, image = some m ∧ setupAccepted m) ∧
      (∀ m, image = some m → setupAccepted m → ∀ g : Seg,
        (t.segSetup g).fitted = (setupByte m 2).getLsbD g.val ∧
        (t.segSetup g).permitA = (setupByte m 15).getLsbD g.val ∧
        (t.segSetup g).permitB = (setupByte m 15).getLsbD (4 + g.val) ∧
        ((t.segSetup g).fitted = true →
          (t.segSetup g).poolLow = setupByte m (3 + 3 * g.val) ∧ (t.segSetup g).poolHigh = setupByte m (4 + 3 * g.val) ∧
          (t.segSetup g).rate = (setupByte m (5 + 3 * g.val)).toNat % 8 ∧
          ((t.segSetup g).mode = .portAFirst ↔ (setupByte m (5 + 3 * g.val)).getLsbD 4 = true))) ∧
      (t.setup.loaded = false → ∀ g : Seg,
        t.segSetup g =
          { fitted := true, poolLow := 1, poolHigh := 200, rate := 2, mode := .roundRobin, permitA := true,
            permitB := true }) ∧
      (∀ g : Seg,
        t.engine g =
          { s.engine g with
            settings := { on := (t.segSetup g).fitted, period := 3, multiplier := 1, threshold := 3, grace := 8, retries := 2,
                          discovery := 0, mode := (t.segSetup g).mode }
            state := if (t.segSetup g).fitted then .idle else .off
            timer := if (t.segSetup g).fitted then some 100 else none
            line := { (s.engine g).line with recessiveRun := 0, dominantRun := 0 } }) ∧
      ∀ q : PortId,
        t.port q =
          { s.port q with
            notices := { (s.port q).notices with
              sticky := (s.port q).notices.sticky ||| (if t.setup.loaded then 0x0800 else 0x1800) } }

/-- RESET and power (R190, R191): a pulse below 16 microseconds changes nothing; one of 64 or more is taken, and power acts as a
taken RESET; one in between does one or the other, which is open (log 7). A taken RESET leaves everything but the run state, the
prescaler and the engines' work as it was; the prescaler's dividers stand (log 34). That every engine becomes OFF at that event,
with its records of the last pick and of a switch-off cleared, is the model's choice (log 20): R189 leaves the engines' state as
it was when the RESET was taken, and R98 gives OFF at CLEARING. -/
def Obligations.ResetEntersSettling : Prop :=
  ∀ s : State,
    let taken (n : Nat) (t : State) : Prop :=
      t.runState = .starting (.settling false) ∧ t.prescaler = { s.prescaler with running := false } ∧ t.pending = s.pending ∧ t.setup = s.setup ∧
      t.entries = s.entries ∧ t.maps = s.maps ∧ t.seeding = s.seeding ∧ t.portA = s.portA ∧ t.portB = s.portB ∧
      t.freeCount = n ∧
      ∀ g : Seg, t.engine g =
        { s.engine g with
          state := .off, tookQueue := false, offTaken := false, activity := none,
          line := { (s.engine g).line with attempt := none, driving := false } }
    (∀ w, w < 16 → exec (.resetTaken w) s = .next s) ∧
    (∀ w, 64 ≤ w → ∃ t, exec (.resetTaken w) s = .next t ∧ taken s.freeCount t) ∧
    (∀ w, 16 ≤ w → w < 64 →
      ∃ t, exec (.resetTaken w) s = .next t ∧
        (t = { s with freeCount := s.freeCount + 1 } ∨ taken (s.freeCount + 1) t)) ∧
    (∃ t, exec .powerApplied s = .next t ∧ taken s.freeCount t) ∧
    (s.runState.isSettling = true → exec .resetReleased s = .next { s with runState := .starting (.settling true) }) ∧
    (s.runState.isSettling = false → exec .resetReleased s = .next s)

/-! ### Segments -/

/-- SET_SEGMENT (R74, R91, R93, R104): the checks, and the settings written when on/off is on, or is off as it was and the engine
not in FAULT, and T is not lowered; an engine that was OFF becomes IDLE when on/off is on. -/
def Obligations.SetSegmentWritesTheSettings : Prop :=
  ∀ (s : State) (p : PortId) (i : SlotIx) (r : Request) (rest : List SlotIx) (b on per mul thr gra ret dis md : Byte),
    s.heads p i r rest → r.kind = .setSegment → r.body = [b, on, per, mul, thr, gra, ret, dis, md] →
    (3 < b.toNat ∨ 1 < on.toNat ∨ 7 < per.toNat ∨ 3 < mul.toNat ∨ thr = 0 ∨ 7 < thr.toNat ∨ 15 < gra.toNat ∨ 3 < ret.toNat ∨
        15 < dis.toNat ∨ 1 < md.toNat →
      exec (.setSegment p) s = .next (s.answered p i r rest .badRequest 0 [])) ∧
    (on.toNat ≤ 1 → per.toNat ≤ 7 → mul.toNat ≤ 3 → 1 ≤ thr.toNat → thr.toNat ≤ 7 → gra.toNat ≤ 15 → ret.toNat ≤ 3 →
      dis.toNat ≤ 15 → md.toNat ≤ 1 → ∀ g : Seg, b = byte g.val →
      (s.permits p g = false ∨ (s.segSetup g).fitted = false →
        exec (.setSegment p) s = .next (s.answered p i r rest .notPermitted 0 [])) ∧
      (s.permits p g = true → (s.segSetup g).fitted = true →
        on = 1 ∨ (on = 0 ∧ (s.engine g).settings.on = false ∧ (s.engine g).state ≠ .fault) → s.threshold g ≤ thr.toNat →
        let state := if on = 1 ∧ (s.engine g).state = .off then EngineState.idle else (s.engine g).state
        exec (.setSegment p) s =
          .next ((s.updEngine g fun e =>
            { e with
              settings := { on := on == 1, period := per.toNat, multiplier := mul.toNat, threshold := thr.toNat,
                            grace := gra.toNat, retries := ret.toNat, discovery := dis.toNat,
                            mode := if md = 1 then .portAFirst else .roundRobin }
              state := state
              expiries := if dis = 0 then 0 else e.expiries }).answered p i r rest .ok 0
            [on, per, mul, thr, gra, ret, dis, md, engineCode state])))

/-- A SET_SEGMENT that switches a segment off, or writes off in FAULT whether it was off or not (R74, R91, R92). The eight
settings are written, a discovery setting of 0 returning the expiry count to 0 (R104). The queue empties, poll-due is cleared,
each queued request and each that waits for the queue is answered SEGMENT_OFF, and the entries of queued MOVEs and RETIREs
return (R94) after the lowering of T if the same request lowers it (R76, R114), each of the two waking the part through an
enabled CHANGED or ABSENT (R182, R207). An engine IDLE or in FAULT becomes OFF and ends its pass; one with an activity goes on,
its switch-off recorded. The SET_SEGMENT is answered OK with the settings and the engine state. Nothing else differs. Whether a
break of the part's own runs on in the engine that becomes OFF is open (log 29); an engine that is OFF with its setting on, which
no run from reset reaches, stays OFF (log 18). -/
def Obligations.SwitchOffAnswersTheQueue : Prop :=
  ∀ (s : State) (p : PortId) (i : SlotIx) (r : Request) (rest : List SlotIx) (g : Seg)
    (per mul thr gra ret dis md : Byte), s.heads p i r rest → s.slotsAgree → r.kind = .setSegment →
    r.body = [byte g.val, 0, per, mul, thr, gra, ret, dis, md] →
    per.toNat ≤ 7 → mul.toNat ≤ 3 → 1 ≤ thr.toNat → thr.toNat ≤ 7 → gra.toNat ≤ 15 → ret.toNat ≤ 3 → dis.toNat ≤ 15 →
    md.toNat ≤ 1 → s.permits p g = true → (s.segSetup g).fitted = true →
    (s.engine g).settings.on = true ∨ (s.engine g).state = .fault →
    let e := s.engine g
    let becomesOff : Prop := e.state = .idle ∨ e.state = .fault
    let written : Engine :=
      { e with
        settings := { on := false, period := per.toNat, multiplier := mul.toNat, threshold := thr.toNat, grace := gra.toNat,
                      retries := ret.toNat, discovery := dis.toNat, mode := if md = 1 then .portAFirst else .roundRobin }
        expiries := if dis = 0 then 0 else e.expiries
        queue := []
        pollDue := false }
    let given (h : Handle) : Prop := ∃ q ∈ e.queue, q.holds h
    ∃ t, exec (.setSegment p) s = .next t ∧
      (becomesOff →
        t.engine g =
          { written with
            state := .off
            tookQueue := false
            line := { e.line with driving := e.line.driving && Config.breakOutlastsOff g }
            pass := if e.pass.active then { e.pass with active := false, attached := [] } else e.pass } ∧
        (e.pass.active = true → s.attachedAnswered t g .segmentOff 4 e.pass)) ∧
      (e.state = .transaction ∨ e.state = .contest → t.engine g = { written with offTaken := true }) ∧
      (e.state = .off → t.engine g = written) ∧
      (∀ k : Seg, k ≠ g → t.engine k = s.engine k) ∧
      s.queueAnswered t g .segmentOff 4 ∧ s.waitersAnswered t g .segmentOff ∧
      t.slot p i = .completed r (r.reply .ok 0 [0, per, mul, thr, gra, ret, dis, md, engineCode (t.engine g).state]) ∧
      (s.answersOnly t fun q j =>
        (q = p ∧ j = i) ∨ (q, j) ∈ s.queuedSlots g ∨ (∃ x, s.waitingFor g q = some (j, x)) ∨
          (becomesOff ∧ e.pass.active = true ∧ (q, j) ∈ e.pass.attached)) ∧
      ∃ lowered : State, s.lowersTo lowered g thr.toNat ∧
        lowered.returnsTo t t.threshold given ∧ (∀ q : PortId, lowered.returnsTold t t.threshold given q 0) ∧
        lowered.returnsWaking t t.threshold given 0

/-- A SET_SEGMENT that lowers T (R74, R93, R104, R114) on a segment that stays on, is switched on, or stays off out of FAULT. The
entries are held to the new T: every SEEDED or PRESENT entry of the segment whose silence has reached it becomes ABSENT with age
0 and one generation further, the ABSENT notice is raised once when any does, and an enabled CHANGED or ABSENT wakes the part
(R182, R207). Over that state the eight settings are written, a discovery setting of 0 returns the expiry count to 0, an OFF
engine becomes IDLE when on/off is on, and the answer is OK with the settings and the engine state. Nothing else differs. -/
def Obligations.LoweringThresholdMakesAbsent : Prop :=
  ∀ (s : State) (p : PortId) (i : SlotIx) (r : Request) (rest : List SlotIx) (g : Seg)
    (on per mul thr gra ret dis md : Byte), s.heads p i r rest → r.kind = .setSegment →
    r.body = [byte g.val, on, per, mul, thr, gra, ret, dis, md] →
    on = 1 ∨ (on = 0 ∧ (s.engine g).settings.on = false ∧ (s.engine g).state ≠ .fault) →
    per.toNat ≤ 7 → mul.toNat ≤ 3 → 1 ≤ thr.toNat → thr.toNat ≤ 7 → gra.toNat ≤ 15 → ret.toNat ≤ 3 → dis.toNat ≤ 15 →
    md.toNat ≤ 1 → s.permits p g = true → (s.segSetup g).fitted = true → thr.toNat < s.threshold g →
    let state := if on = 1 ∧ (s.engine g).state = .off then EngineState.idle else (s.engine g).state
    ∃ lowered : State, s.lowersTo lowered g thr.toNat ∧
      exec (.setSegment p) s =
        .next ((lowered.updEngine g fun e =>
          { e with
            settings := { on := on == 1, period := per.toNat, multiplier := mul.toNat, threshold := thr.toNat,
                          grace := gra.toNat, retries := ret.toNat, discovery := dis.toNat,
                          mode := if md = 1 then .portAFirst else .roundRobin }
            state := state
            expiries := if dis = 0 then 0 else e.expiries }).answered p i r rest .ok 0
          [on, per, mul, thr, gra, ret, dis, md, engineCode state])

/-- GET_SEGMENT (R75, R213). -/
def Obligations.GetSegmentReportsTheSegment : Prop :=
  ∀ (s : State) (p : PortId) (i : SlotIx) (r : Request) (rest : List SlotIx) (b : Byte), s.heads p i r rest →
    r.kind = .getSegment → r.body = [b] →
    (3 < b.toNat → exec (.getSegment p) s = .next (s.answered p i r rest .badRequest 0 [])) ∧
    ∀ g : Seg, b = byte g.val →
      let e := s.engine g
      let x := s.segSetup g
      let bit (c : Bool) : Byte := if c then 1 else 0
      let settings : List Byte :=
        [bit e.settings.on, byte e.settings.period, byte e.settings.multiplier, byte e.settings.threshold,
         byte e.settings.grace, byte e.settings.retries, byte e.settings.discovery,
         match e.settings.mode with | .roundRobin => 0 | .portAFirst => 1]
      (x.fitted = true →
        exec (.getSegment p) s = .next (s.answered p i r rest .ok 0
          ([1, engineCode e.state,
            bit (!e.settings.on && (e.state == .transaction || e.state == .contest))] ++ settings ++
           [x.poolLow, x.poolHigh, byte x.rate, bit x.permitA, bit x.permitB, byte e.queue.length, byte e.resolution.length,
            bit e.pass.active, byte e.pass.contests, byte e.parked, 0]))) ∧
      (x.fitted = false →
        exec (.getSegment p) s = .next (s.answered p i r rest .ok 0
          ([0, 0, 0] ++ settings ++ [0, 0, 0, bit x.permitA, bit x.permitB, 0, 0, 0, 0, 0, 0])))

/-- POLL_TIMER_EXPIRY (R97, R101, R102, R104). A period that is not over changes nothing (log 2). At its end an engine in FAULT
whose line has been recessive for 64 bit times becomes IDLE, or OFF when its setting is off, with SEG_RECOVERED set in both
units; then poll-due and the expiry count move by the table for the engine's state and the run state as they stand (log 16), a
count with N = 0 staying 0; then the next period begins with the codes as they stand. Nothing else but the line's measured run
differs. -/
def Obligations.PollTimerExpiryMarksOrRecovers : Prop :=
  ∀ (s : State) (g : Seg) (ticks run len : Nat), s.runState.isStarting = false → (s.engine g).timer = some len →
    let expiry : Instr := .pollTimerExpiry g { ticks := ticks, run := run }
    (ticks < len → exec expiry s = .next s) ∧
    (len ≤ ticks →
      let e := s.engine g
      let recovers : Prop := e.state = .fault ∧ 64 ≤ run
      ∃ t u v : State, exec expiry s = .next t ∧ s.measuredFrom u g ∧
        (¬ recovers → v = u) ∧
        (recovers → v = (u.updEngine g fun x =>
          { x with state := if e.settings.on then .idle else .off }).noticed .segRecovered) ∧
        t = v.updEngine g (fun x =>
          { x with
            pollDue := (t.engine g).pollDue, expiries := (t.engine g).expiries, discoveryDue := (t.engine g).discoveryDue,
            timer := (t.engine g).timer }) ∧
        let marks : Prop := (v.engine g).state ≠ .off ∧ (v.engine g).state ≠ .fault ∧ s.seeding = false
        let counted : Prop := marks ∧ v.runState = .run
        ((t.engine g).pollDue = true ↔ e.pollDue = true ∨ marks) ∧
        (counted → e.settings.discovery = 0 →
          (t.engine g).expiries = 0 ∧ (t.engine g).discoveryDue = e.discoveryDue) ∧
        (counted → e.expiries + 1 < e.settings.discovery →
          (t.engine g).expiries = e.expiries + 1 ∧ (t.engine g).discoveryDue = e.discoveryDue) ∧
        (counted → 1 ≤ e.settings.discovery → e.settings.discovery ≤ e.expiries + 1 →
          (t.engine g).expiries = 0 ∧ (t.engine g).discoveryDue = true) ∧
        (¬ counted → (t.engine g).expiries = e.expiries ∧ (t.engine g).discoveryDue = e.discoveryDue) ∧
        ∃ ms, (t.engine g).timer = some ms ∧
          (e.settings.period ≤ 7 → e.settings.multiplier ≤ 3 →
            ms = [10, 20, 50, 100, 200, 500, 1000, 2000].getD e.settings.period 0 *
              (if v.runState = .quiet then [4, 16, 64, 256].getD e.settings.multiplier 0 else 1)))

/-! ### Line requests -/

/-- A line request that passes every check (R36, R77 to R79, R87 to R90, R121, R145, R153, R171). With a place in its segment's
queue and the other port not waiting for it, a NODE_READ, NODE_WRITE, BROADCAST or DISCOVER enters in its dispatch. With the
queue full, a request of any kind stays WAITING at the head of its list, and nothing else changes. With two places free or more,
a request of any kind leaves the WAITING list in its dispatch, also when the other port's request waits for the queue: it is
admitted, or completes with a check that the other's admission made fail (log 13). -/
def Obligations.LineRequestEntersTheQueue : Prop :=
  ∀ (s : State) (p : PortId) (i : SlotIx) (r : Request) (rest : List SlotIx) (c : Instr) (g : Seg) (q : LineReq)
    (e : Option Handle), s.heads p i r rest → s.passes p r c g q e →
    (s.placeFor g p → r.kind ≠ .move → r.kind ≠ .retire →
      exec c s = .next (s.admitted p i r rest g
        { port := p, slot := i, req := q, entry := e, identity := (e.map fun h => (s.entry h).identity).getD 0,
          segment := g })) ∧
    (8 ≤ (s.engine g).queue.length → exec c s = .next (s.setPort p { s.port p with waitsFor := some g })) ∧
    ((s.engine g).queue.length ≤ 6 →
      ∃ t, exec c s = .next t ∧ (t.port p).waiting = rest ∧ (t.port p).waitsFor = none ∧
        ((t.slot p i = .dispatched r ∧ ∃ x ∈ (t.engine g).queue, x.port = p ∧ x.slot = i ∧ x.req = q ∧ x.entry = e) ∨
          ∃ z, t.slot p i = .completed r z ∧ z.status ≠ .ok))

/-- A line request that fails its state answer, its segment condition, or the pool and map checks of a MOVE is answered so at
its dispatch; a BROADCAST or DISCOVER likewise by permit, window and segment (R14, R36, R89, R90, R121, R145, R153). -/
def Obligations.LineRequestRefusalAnswersFirstFailure : Prop :=
  ∀ (s : State) (p : PortId) (i : SlotIx) (r : Request) (rest : List SlotIx), s.heads p i r rest →
    (∀ (h : Handle) (x : Byte) (c : Status),
      let refused (k : Instr) : Prop := exec k s = .next (s.answered p i r rest c (s.entry h).generation [])
      (∀ item len, r.kind = .nodeRead → r.body = [byte h.val, x, item, len] → 1 ≤ len.toNat → len.toNat ≤ 32 →
        s.firstFailure p (byte h.val) false (some x) = none → s.lineFailure h transferState none = some c →
        refused (.nodeRead p)) ∧
      (s.firstFailure p (byte h.val) true (some x) = none →
        (∀ item data, r.kind = .nodeWrite → r.body = byte h.val :: x :: item :: data → 1 ≤ data.length →
          data.length ≤ 32 → s.lineFailure h transferState none = some c → refused (.nodeWrite p)) ∧
        (∀ t, r.kind = .move → r.body = [byte h.val, t, x] → 1 ≤ t.toNat → t.toNat ≤ 200 →
          s.lineFailure h moveState (some t) = some c → refused (.move p)) ∧
        ∀ f, r.kind = .retire → r.body = [byte h.val, f, x] → f.toNat ≤ 1 →
          s.lineFailure h retireState none = some c → refused (.retire p))) ∧
    (∀ (g : Seg) (item : Byte) (data : List Byte), r.kind = .broadcast → r.body = byte g.val :: item :: data →
      1 ≤ data.length → data.length ≤ 32 →
      (s.permits p g = false → exec (.broadcast p) s = .next (s.answered p i r rest .notPermitted 0 [])) ∧
      ∀ c, s.permits p g = true → s.segmentCondition g = some c →
        exec (.broadcast p) s = .next (s.answered p i r rest c 0 [])) ∧
    ∀ g : Seg, r.kind = .discover → r.body = [byte g.val] →
      (s.permits p g = false → exec (.discover p) s = .next (s.answered p i r rest .notPermitted 0 [0, 0, 0, 0, 0, 0])) ∧
      (s.permits p g = true → s.seeding = true →
        exec (.discover p) s = .next (s.answered p i r rest .wrongState 0 [0, 0, 0, 0, 0, 0])) ∧
      ∀ c, s.permits p g = true → s.seeding = false → s.segmentCondition g = some c →
        exec (.discover p) s = .next (s.answered p i r rest c 0 [0, 0, 0, 0, 0, 0])

/-- The admission of a MOVE makes its entry MOVING and its target RESERVED; that of a RETIRE makes its entry RETIRING and takes
it off the resolution list (R11, R146, R154). -/
def Obligations.MoveAndRetireAdmissionsMarkTheEntry : Prop :=
  ∀ (s : State) (p : PortId) (i : SlotIx) (r : Request) (rest : List SlotIx) (h : Handle) (x : Byte), s.heads p i r rest →
    s.firstFailure p (byte h.val) true (some x) = none → s.placeFor (s.entry h).segment p →
    let e := s.entry h
    let item (q : LineReq) : QueueItem :=
      { port := p, slot := i, req := q, entry := some h, identity := e.identity, segment := e.segment }
    (∀ t, r.kind = .move → r.body = [byte h.val, t, x] → 1 ≤ t.toNat → t.toNat ≤ 200 →
      s.lineFailure h moveState (some t) = none →
      exec (.move p) s = .next (((s.admitted p i r rest e.segment (item (.move (byte h.val) t x))).setMap e.segment t
        (.reserved h)).moved h { e with state := .moving .present t })) ∧
    (∀ (f : Byte) (prior : Prior), r.kind = .retire → r.body = [byte h.val, f, x] → f = 0 ∨ f = 1 →
      e.state = priorState prior → s.lineFailure h retireState none = none →
      exec (.retire p) s = .next ((((s.admitted p i r rest e.segment (item (.retire (byte h.val) (f == 1) x))).updEngine
        e.segment fun y => { y with resolution := y.resolution.filter (· != h) })).moved h
          { e with state := .retiring prior (f == 1) }))

/-- The intake arbiter on a free place (R78): the one waiting port is served; when both wait, round-robin serves the port other
than the last served and port-A-first serves port A. A request whose checks pass anew enters the queue with its entry's identity
and segment (R36), and a MOVE or a RETIRE changes its entry and the map in the same event (R146, R154). One whose check fails
completes with that failure and takes no place, the last-served port staying; the other port's waiting request is then admitted
in the same event, or completes with its own failure. With none waiting, or no place free, nothing changes. -/
def Obligations.IntakeArbiterAdmitsByMode : Prop :=
  ∀ (s : State) (g : Seg), s.runState.isStarting = false →
    let waits (p : PortId) (i : SlotIx) (r : Request) (rest : List SlotIx) (q : LineReq) : Prop :=
      s.waitingFor g p = some (i, q) ∧ s.slot p i = .waiting r ∧ (s.port p).waiting = i :: rest ∧ i ∉ rest
    (8 ≤ (s.engine g).queue.length → exec (.intakeAdmission g) s = .next s) ∧
    (s.waitingFor g .a = none → s.waitingFor g .b = none → exec (.intakeAdmission g) s = .next s) ∧
    ((s.engine g).queue.length < 8 →
      ∀ (p : PortId) (i : SlotIx) (r : Request) (rest : List SlotIx) (q : LineReq), waits p i r rest q →
        (s.waitingFor g p.other = none ∨
          ((s.engine g).settings.mode = .roundRobin ∧ (s.engine g).lastServed = p.other) ∨
          ((s.engine g).settings.mode = .portAFirst ∧ p = .a)) →
        (∀ sg, s.checkLine p (checkedAnew q) = .ok sg →
          ∃ t, exec (.intakeAdmission g) s = .next t ∧ s.entersAs t p i r rest g q) ∧
        ∀ a : Answer, s.checkLine p (checkedAnew q) = .error a →
          let u := s.replied p i r a.status a.generation a.body
          (s.waitingFor g p.other = none → exec (.intakeAdmission g) s = .next u) ∧
          ∀ (j : SlotIx) (r' : Request) (rest' : List SlotIx) (q' : LineReq), waits p.other j r' rest' q' →
            (∀ sg, u.checkLine p.other (checkedAnew q') = .ok sg →
              ∃ t, exec (.intakeAdmission g) s = .next t ∧ u.entersAs t p.other j r' rest' g q') ∧
            ∀ b : Answer, u.checkLine p.other (checkedAnew q') = .error b →
              exec (.intakeAdmission g) s = .next (u.replied p.other j r' b.status b.generation b.body))

/-! ### Picks -/

/-- The pick of an IDLE engine (R80, R83, R124, R141, R205). In QUIETING and QUIET an active pass is ended first. Then the
head of the resolution list while the window is closed; otherwise, with no poll due, in RUN the next contest of an active pass
when it is available; otherwise, in RUN and QUIETING, the head of the queue, answered STALE when its entry is FREE or has
changed identity or segment; in QUIET, or with an empty queue, nothing; that such a pick clears the record of the last one is
the model's (log 17). -/
def Obligations.PickTakesTheFirstAvailableWork : Prop :=
  ∀ (s : State) (g : Seg), s.runState.isStarting = false → (s.engine g).state = .idle → (s.engine g).settings.on = true →
    let e := s.engine g
    let u := s.readied g
    let record (b : Bool) (t : State) : State := t.updEngine g fun x => { x with tookQueue := b }
    (∀ (h : Handle) (more : List Handle), e.resolution = h :: more → s.seeding = false →
      exec (.pick g) s = .next ((record false u).carrying g .transaction
        (.resolveRelease h (s.entry h).address (s.entry h).identity) none)) ∧
    ((e.resolution = [] ∨ s.seeding = true) → e.pollDue = false →
      (s.runState = .run → e.pass.active = true → s.seeding = false → (e.queue = [] ∨ e.tookQueue = true) →
        exec (.pick g) s = .next (((record false u).updEngine g fun x => { x with discoveryDue := false }).carrying g .contest
          .callUnbound none)) ∧
      (s.runState ≠ .run ∨ (e.pass.active = false ∧ e.discoveryDue = false) ∨ s.seeding = true ∨
          (e.queue ≠ [] ∧ e.tookQueue = false) →
        (e.queue = [] ∨ s.runState = .quiet → exec (.pick g) s = .next (record false u)) ∧
        (s.runState ≠ .quiet → ∀ (q : QueueItem) (more : List QueueItem) (r : Request), e.queue = q :: more →
          u.slot q.port q.slot = .dispatched r →
          let taken := (u.updEngine g fun x => { x with queue := more }).updPort q.port fun y =>
            { y with slots := y.slots.set q.slot (.onLine r) }
          let owner : Option Owner := some { port := q.port, slot := some q.slot }
          (∀ sg item data, q.req = .broadcast sg item data →
            exec (.pick g) s = .next ((record true taken).carrying g .transaction (.broadcast item data) owner)) ∧
          ∀ h : Handle, q.entry = some h →
            let a := s.entry h
            let same : Prop := a.state ≠ .free ∧ a.identity = q.identity ∧ a.segment = q.segment
            let runs (w : Work) : Prop :=
              (same → exec (.pick g) s = .next ((record true taken).carrying g .transaction w owner)) ∧
              (¬ same → exec (.pick g) s = .next (taken.replied q.port q.slot r .stale a.generation []))
            (∀ b x item len, q.req = .nodeRead b x item len → runs (.nodeRead h item len a.identity a.segment a.address)) ∧
            (∀ b x item data, q.req = .nodeWrite b x item data →
              runs (.nodeWrite h item data a.identity a.segment a.address)) ∧
            (∀ b t x, q.req = .move b t x → runs (.move .one h a.address t a.identity)) ∧
            ∀ b f x, q.req = .retire b f x → runs (.retire h a.address f))))

/-- A poll turn (R80, R105 to R108, R205), in RUN, QUIETING and QUIET, where an active pass has ended first. From the cursor, once
round, the first entry that is due is polled and the cursor moves past it; the entries passed over on the way have their stride
counters lowered, and CONFLICT entries among them are on the resolution list. A turn that finds none clears the due flag and
leaves the cursor, and the pick goes on at item 3, as the pick of an engine without a resolution or a due poll does. The
resolution list is empty, or the window keeps it waiting. -/
def Obligations.PollTurnPollsTheFirstDueEntry : Prop :=
  ∀ (s : State) (g : Seg), s.runState.isStarting = false → (s.engine g).state = .idle → (s.engine g).settings.on = true →
    (s.engine g).resolution = [] ∨ s.seeding = true → (s.engine g).pollDue = true →
    let u := s.readied g
    let polled (e : Entry) : Prop := e.segment = g ∧ (e.state = .seeded ∨ e.state = .present ∨ e.state = .absent)
    let at_ (j : Nat) : Handle := (s.engine g).cursor + Fin.ofNat 128 j
    let passed (n : Nat) (t : State) : Prop :=
      (∀ j, j < n → polled (s.entry (at_ j)) →
        t.entry (at_ j) =
          { s.entry (at_ j) with
            stride := (s.entry (at_ j)).stride.map fun st => { st with counter := st.counter - 1 } }) ∧
      (∀ j, j < n → ¬ polled (s.entry (at_ j)) → t.entry (at_ j) = s.entry (at_ j)) ∧
      (∀ k : Handle, k ∈ (t.engine g).resolution ↔
        k ∈ (s.engine g).resolution ∨
          ∃ j, j < n ∧ k = at_ j ∧ (s.entry k).state = .conflict ∧ (s.entry k).segment = g) ∧
      (∀ k : Seg, k ≠ g → t.engine k = u.engine k) ∧
      t = { u with entries := t.entries, engines := t.engines }
    let waits (j : Nat) : Prop :=
      polled (s.entry (at_ j)) → ∃ st, (s.entry (at_ j)).stride = some st ∧ st.counter ≠ 0
    (∀ n, n < 128 → polled (s.entry (at_ n)) → (∀ st, (s.entry (at_ n)).stride = some st → st.counter = 0) →
      (∀ j, j < n → waits j) →
      let h := at_ n
      ∃ t, exec (.pick g) s = .next t ∧ passed n t ∧
        (t.engine g).state = .transaction ∧ (t.engine g).cursor = h + 1 ∧ (t.engine g).pollDue = false ∧
        (t.engine g).tookQueue = false ∧ (t.engine g).queue = (s.engine g).queue ∧ (t.engine g).pass = (u.engine g).pass ∧
        (t.engine g).activity = some
          { work := .poll h (s.entry h).identity (s.entry h).segment (s.entry h).address, owner := none, retries := 0 } ∧
        t.entry h =
          { s.entry h with stride := (s.entry h).stride.map fun st => { st with counter := st.value - 1 } } ∧
        ∀ j, n < j → j < 128 → t.entry (at_ j) = s.entry (at_ j)) ∧
    ((∀ j, j < 128 → waits j) →
      ∃ v, passed 128 v ∧
        v.engine g = { u.engine g with pollDue := false, resolution := (v.engine g).resolution } ∧
        ∃ t, exec (.pick g) (v.updEngine g fun y => { y with resolution := [] }) = .next t ∧
          exec (.pick g) s = .next (t.updEngine g fun y => { y with resolution := (v.engine g).resolution }))

/-- A DISCOVER at the head of the queue (R122, R123): in QUIETING it is answered OK with end reason QUIET and counts of 0; in
RUN it attaches to the active pass, or starts one with counts of 0, which begins with UNPARK_ALL when the parked count is above
0 and some entry is FREE. Discovery-due starts a pass the same way, with nothing attached, and is cleared (R120, R123, R124). A
pick in QUIETING or QUIET ends an active pass QUIET (R80, R137, R138). -/
def Obligations.PicksStartJoinAndEndPasses : Prop :=
  ∀ (s : State) (g : Seg), (s.engine g).state = .idle → (s.engine g).settings.on = true →
    let e := s.engine g
    let unparks : Prop := 0 < e.parked ∧ ∃ h : Handle, (s.entry h).state = .free
    (∀ (k : Seg) (q : QueueItem) (more : List QueueItem) (r : Request), e.resolution = [] → e.pollDue = false →
      e.queue = q :: more → q.req = .discover k → s.slot q.port q.slot = .dispatched r →
      (s.runState = .quieting → e.pass.active = false →
        ∃ t, exec (.pick g) s = .next t ∧ t.runState = .quieting ∧ (t.engine g).queue = more ∧
          (t.engine g).state = .idle ∧ (t.engine g).pass = e.pass ∧
          t.slot q.port q.slot = .completed r (r.reply .ok 0 [3, 0, 0, 0, 0, 0])) ∧
      (s.runState = .run → (s.seeding = true ∨ e.tookQueue = false ∨ (e.pass.active = false ∧ e.discoveryDue = false)) →
        ∃ t, exec (.pick g) s = .next t ∧ (t.engine g).queue = more ∧ t.slot q.port q.slot = .onLine r ∧
          (t.engine g).tookQueue = true ∧ t.entries = s.entries ∧ t.maps = s.maps ∧
          (e.pass.active = true →
            (t.engine g).pass = { e.pass with attached := e.pass.attached ++ [(q.port, q.slot)] } ∧
            (t.engine g).state = .idle) ∧
          (e.pass.active = false →
            (t.engine g).pass =
              { active := true, contests := 0, joined := 0, rejoined := 0, parked := 0, lost := 0,
                attached := [(q.port, q.slot)] } ∧
            (¬ unparks → (t.engine g).state = .idle) ∧
            (unparks →
              (t.engine g).state = .transaction ∧
                (t.engine g).activity = some { work := .unparkAll, owner := none, retries := 0 })))) ∧
    (s.runState = .run → s.seeding = false → e.resolution = [] → e.pollDue = false → e.pass.active = false →
      e.discoveryDue = true → e.queue = [] ∨ e.tookQueue = true →
      let u := s.updEngine g fun y =>
        { y with
          tookQueue := false, discoveryDue := false
          pass := { active := true, contests := 0, joined := 0, rejoined := 0, parked := 0, lost := 0, attached := [] } }
      (unparks → exec (.pick g) s = .next (u.carrying g .transaction .unparkAll none)) ∧
      (¬ unparks → exec (.pick g) s = .next (u.carrying g .contest .callUnbound none))) ∧
    (s.runState = .quieting ∨ s.runState = .quiet → e.pass.active = true →
      ∃ t, exec (.pick g) s = .next t ∧ (t.engine g).pass = { e.pass with active := false, attached := [] } ∧
        (s.slotsAgree → s.attachedAnswered t g .ok 3 e.pass))

/-! ### Attempts on the line -/

/-- An attempt goes through its phases (R53, R55, R57, R59, R61, R63, R68 to R70): the idle gap begins the frame, a dominant
acknowledge lets it go on, its end awaits a reply or the contest, contention starts the part's own break, slots that read an
identity open the class window, and in a reply each character that passes its check is appended, an edge whose start bit reads
recessive is none, and a dominant stop bit leaves its run open. Nothing else differs. The line is then as measured; that the
dominant run of a contended bit is written as 0 is the model's choice (log 29). -/
def Obligations.AttemptsMoveThroughTheirPhases : Prop :=
  ∀ (s : State) (g : Seg) (t : Attempt), (s.engine g).line.attempt = some t →
    let goes (c : Instr) (f : Line → Line) (a : Attempt) : Prop :=
      exec c s = .next (s.updLine g fun l => { f l with attempt := some a })
    (∀ run, t.phase = .idleWait → (s.engine g).line.driving = false → 4 ≤ run →
      goes (.idleGapElapsed g run) (·.showing .recessive run) { t with phase := .address }) ∧
    (t.phase = .address → t.frame.function.addressed = true →
      goes (.acknowledgeSlot g true) id { t with phase := .body }) ∧
    (t.phase = (if t.frame.function.addressed then .body else .address) →
      (t.frame.function.expectsReply = true → goes (.commandFrameSent g) id { t with phase := .replyWait }) ∧
      (t.frame.function = .callUnbound → goes (.commandFrameSent g) id { t with phase := .slots })) ∧
    (∀ k, t.frame.bits.getD k false = true →
      (t.phase = .address ∧ (t.frame.function.addressed = true → k < 11)) ∨ (t.phase = .body ∧ 11 ≤ k) →
      goes (.contention g k) (fun l => { l.showing .dominant 0 with driving := true }) { t with phase := .ownBreak }) ∧
    (∀ read : Ident, t.phase = .slots → read ≠ 0 → read ≠ BitVec.allOnes 48 →
      goes (.contestSlotsEnd g read) id { t with phase := .classWait, slotsRead := read }) ∧
    (∀ (mark : Bool) (d : Byte), t.takes mark d →
      goes (.replyCharacter g { startDominant := true, data := d, mark := mark, stopRecessive := true }) id
        { t with phase := .reply, received := t.received ++ [d] }) ∧
    ∀ ch : LineChar, t.phase = .replyWait ∨ t.phase = .reply → t.openRun = false →
      (ch.startDominant = false → exec (.replyCharacter g ch) s = .next s) ∧
      (ch.startDominant = true → ch.stopRecessive = false →
        goes (.replyCharacter g ch) id { t with phase := .reply, openRun := true })

/-- An attempt that ends NO_REPLY, FRAMING or CONTENTION is repeated with the same frame while fewer retries than the limit have
been made (R53, R55, R60, R61, R63, R84); a forced RETIRE is not (R155). Nothing else differs but the line as measured in that
event: recessive with both runs 0 at the end of a malformed character's dominant run, and at the end of the part's own break
dominant behind the filter (R50) and no longer driven, with the break's length as its dominant run, which is the model's choice
(log 29). -/
def Obligations.UnansweredAttemptIsRepeated : Prop :=
  ∀ (s : State) (g : Seg) (a : Activity) (t : Attempt), s.attempting g a t →
    a.retries < (s.engine g).settings.retries → (∀ h adr, a.work ≠ .retire h adr true) →
    let again (m : State) : State := m.updEngine g fun e =>
      { e with
        activity := some { a with retries := a.retries + 1 }
        line := { e.line with
          attempt := some
            { frame := a.work.frame, phase := .idleWait, received := [], openRun := false, slotsRead := 0 } } }
    (t.phase = .address → t.frame.function.addressed = true → exec (.acknowledgeSlot g false) s = .next (again s)) ∧
    (∀ n, t.phase = .replyWait → 40 ≤ n → exec (.replyWindowTimeout g n) s = .next (again s)) ∧
    (∀ (c : Instr) (m : State), s.misframes g t c m → exec c s = .next (again m)) ∧
    (∀ run, t.phase = .ownBreak → (s.engine g).line.driving = true → 24 ≤ run →
      exec (.breakRelease g run) s = .next (again (s.updLine g (·.releasing run))))

/-- The final outcome of a poll (R109 to R112, R115, R116), applied to the entry as it then stands. An entry that is FREE or
has changed its identity or segment stays. One that is MOVING or RETIRING has its silence cleared by its own identity and
otherwise stays. A SEEDED, PRESENT or ABSENT one is confirmed by its own identity and disputed by another's or by a break;
NO_REPLY and FRAMING count its silence, which at T makes a SEEDED or PRESENT one ABSENT, and age an ABSENT one, which is
retired when unclaimed with its age at the grace; CONTENTION changes nothing. The engine's activity ends (`State.ended`), also
when its segment has been switched off during it (R92); nothing else differs but the line as measured. That its pass ends OFF
also when the setting is on again by then is the model's reading (log 33). -/
def Obligations.PollOutcomesDecideTheEntry : Prop :=
  ∀ (s m : State) (g sg : Seg) (a : Activity) (t : Attempt) (c : Instr) (o : LineOutcome) (h : Handle) (x : Ident) (adr : Byte),
    s.attempting g a t → t.frame = a.work.frame → a.work = .poll h x sg adr →
    s.concludes g a t c o m →
    let e := s.entry h
    let same : Prop := e.state ≠ .free ∧ e.identity = x ∧ e.segment = sg
    let answers : Prop := ∃ cls : Byte, o = .accept (identBytes x ++ [cls])
    let quieter := min (e.silence + 1) 7
    let older := min (e.age + 1) 15
    let grace := (s.engine e.segment).settings.grace
    let ends (u : State) : Prop := exec c s = .next (u.ended g)
    (¬ same → ends m) ∧
    (same → e.inHand → (answers → ends (m.setEntry h { e with silence := 0 })) ∧ (¬ answers → ends m)) ∧
    (same → e.state = .seeded ∨ e.state = .present ∨ e.state = .absent →
      match o with
      | .accept _ =>
        (answers → e.state = .present → ends (m.setEntry h { e with silence := 0, age := 0 })) ∧
        (answers → e.state ≠ .present → ends (m.moved h { e with state := .present, silence := 0, age := 0 })) ∧
        (¬ answers → ends (m.disputed g h))
      | .collision => ends (m.disputed g h)
      | .noReply | .framing =>
        (e.state ≠ .absent → quieter < s.threshold e.segment → ends (m.setEntry h { e with silence := quieter })) ∧
        (e.state ≠ .absent → s.threshold e.segment ≤ quieter →
          ends ((m.moved h { e with state := .absent, silence := quieter, age := 0 }).noticed .absent)) ∧
        (e.state = .absent → 1 ≤ grace → grace ≤ older → e.claim = none → ends (m.retired h)) ∧
        (e.state = .absent → ¬ (1 ≤ grace ∧ grace ≤ older ∧ e.claim = none) →
          ends (m.setEntry h { e with silence := quieter, age := older }))
      | .contention => ends m
      | .refuse _ | .sent | .stuck => False)

/-- The final outcome of a NODE_READ or NODE_WRITE (R37, R83, R86 to R88): its status, with the data of an accepted read and
the code of a refusal, and the entry's generation after the event; on an entry that is still the one recorded, a reply clears
its silence, an unanswered outcome counts it, at T making a SEEDED or PRESENT entry ABSENT, and a break disputes the address.
A MOVING or RETIRING entry keeps its state, and CONTENTION changes nothing. All of it holds also for an orphaned request,
whose response is discarded (`State.told`; R28, R100, R176), and for a segment that has been switched off (`State.ended`;
R92). That its pass ends OFF also when the setting is on again by then is the model's reading (log 33), and that the request
is answered before the pass's DISCOVERs its choice (log 14). -/
def Obligations.HostTransactionOutcomesAnswerAndCount : Prop :=
  ∀ (s m : State) (g sg : Seg) (a : Activity) (t : Attempt) (c : Instr) (o : LineOutcome) (h : Handle) (x : Ident) (adr : Byte)
    (reads : Bool),
    s.attempting g a t → t.frame = a.work.frame →
    (reads = true ∧ ∃ item len, a.work = .nodeRead h item len x sg adr) ∨
      (reads = false ∧ ∃ item data, a.work = .nodeWrite h item data x sg adr) →
    s.concludes g a t c o m →
    let e := s.entry h
    let same : Prop := e.state ≠ .free ∧ e.identity = x ∧ e.segment = sg
    let quieter := min (e.silence + 1) 7
    let held : Prop := (∃ pr tg, e.state = .moving pr tg) ∨ ∃ pr f, e.state = .retiring pr f
    ∃ (u : State) (st : Status) (body : List Byte),
      exec c s = .next ((u.told a.owner st (u.entry h).generation body).ended g) ∧
      (¬ same → u = m) ∧ (same → held → u = m ∨ u = m.setEntry h { e with silence := 0 }) ∧
      match o with
      | .accept d => st = .ok ∧ body = (if reads then d else []) ∧ (same → u = m.setEntry h { e with silence := 0 })
      | .refuse code => st = .refused ∧ body = [code] ∧ (same → u = m.setEntry h { e with silence := 0 })
      | .noReply | .framing =>
        st = (if o = .noReply then .noReply else .framing) ∧ body = [] ∧
          (same → e.state = .seeded ∨ e.state = .present →
            (quieter < s.threshold e.segment → u = m.setEntry h { e with silence := quieter }) ∧
            (s.threshold e.segment ≤ quieter →
              u = (m.moved h { e with state := .absent, silence := quieter, age := 0 }).noticed .absent)) ∧
          (same → e.state = .absent ∨ e.state = .conflict → u = m.setEntry h { e with silence := quieter }) ∧
          (held → u = m)
      | .collision =>
        st = .collision ∧ body = [] ∧
          (same → e.state = .seeded ∨ e.state = .present ∨ e.state = .absent → u = m.disputed g h) ∧
          (same → e.state = .conflict → u = m.updEngine g fun y =>
            { y with resolution := if h ∈ y.resolution then y.resolution else y.resolution ++ [h] }) ∧
          (held → u = m)
      | .contention => st = .contention ∧ body = [] ∧ u = m
      | .sent | .stuck => False

/-- The final outcome of step 2 of a resolution (R143, R144): the recorded identity makes a CONFLICT entry PRESENT, NO_REPLY
makes it ABSENT with its silence kept, any other outcome leaves it CONFLICT; a RETIRING one has its silence cleared by the
recorded identity, any other entry stays. The handle leaves the list, and the activity ends, also on a segment that has been
switched off (`State.ended`; R92). That its pass ends OFF also when the setting is on again by then is the model's reading
(log 33). -/
def Obligations.ResolutionStepTwoDecidesTheEntry : Prop :=
  ∀ (s m : State) (g : Seg) (a : Activity) (t : Attempt) (c : Instr) (o : LineOutcome) (h : Handle) (x : Ident) (adr : Byte),
    s.attempting g a t → t.frame = a.work.frame → a.work = .resolvePresence h adr x →
    s.concludes g a t c o m →
    let e := s.entry h
    let leaves (u : State) : Prop :=
      exec c s = .next ((u.updEngine g fun y => { y with resolution := y.resolution.filter (· != h) }).ended g)
    let answers : Prop := ∃ cls : Byte, o = .accept (identBytes x ++ [cls])
    (e.state = .conflict →
      (answers → leaves (m.moved h { e with state := .present, silence := 0, age := 0 })) ∧
      (o = .noReply → leaves ((m.moved h { e with state := .absent, age := 0 }).noticed .absent)) ∧
      (¬ answers → o ≠ .noReply → leaves m)) ∧
    (∀ pr f, e.state = .retiring pr f →
      (answers → leaves (m.setEntry h { e with silence := 0 })) ∧ (¬ answers → leaves m)) ∧
    (e.state ≠ .conflict → (∀ pr f, e.state ≠ .retiring pr f) → leaves m)

/-- The final outcomes of a MOVE's steps (R148 to R151): the next step, with a RELEASE_UNLESS before step 3 when step 2 met a
stray node, or the end of the ladder with the entry and the map slot as the tables give and the answer that carries status,
code, step and the entry's state and address. An orphaned MOVE goes the same way, its response discarded (`State.told`; R100,
R176), and so does one on a segment that has been switched off (`State.ended`; R92). That its pass ends OFF also when the
setting is on again by then is the model's reading (log 33), and that the request is answered before the pass's DISCOVERs its
choice (log 14). -/
def Obligations.MoveLadderStepsAndEndings : Prop :=
  ∀ (s m : State) (g : Seg) (a : Activity) (t : Attempt) (c : Instr) (o : LineOutcome) (step : MoveStep) (h : Handle) (x : Ident)
    (adr target : Byte) (prior : Prior),
    s.attempting g a t → t.frame = a.work.frame → a.work = .move step h adr target x →
    (s.entry h).state = .moving prior target → s.concludes g a t c o m →
    let e := s.entry h
    let goesTo (n : MoveStep) : Prop := exec c s = .next (m.stepped g a (.move n h adr target x))
    let ends (u : State) (st : Status) (code n : Byte) : Prop :=
      exec c s = .next ((u.told a.owner st (u.entry h).generation
        [code, n, stateCode (u.entry h).state, (u.entry h).address]).ended g)
    let emptied := m.setMap e.segment target .empty
    let confirmed := emptied.moved h { e with state := .present, silence := 0, age := 0 }
    let completed := ((m.setMap e.segment e.address .empty).setMap e.segment target (.held h)).moved h
      { e with address := target, state := .present, silence := 0, age := 0 }
    let silent := (emptied.moved h { e with state := .absent, age := 0 }).noticed .absent
    let answers : Prop := ∃ cls : Byte, o = .accept (identBytes x ++ [cls])
    match step, o with
    | .one, .accept _ => goesTo .two
    | .one, .refuse code => ends confirmed .refused code 1
    | .one, .noReply | .one, .framing => goesTo .three
    | .one, .collision => ends (emptied.disputed g h) .collision 0 1
    | .one, .contention => ends (emptied.backTo h prior e.silence) .contention 0 1
    | .two, .accept _ => (answers → ends completed .ok 0 2) ∧ (¬ answers → goesTo .stray)
    | .two, .collision => goesTo .stray
    | .two, .noReply | .two, .framing | .two, .contention => goesTo .three
    | .stray, _ => goesTo .three
    | .three, .accept _ =>
      (answers → ends confirmed .noReply 0 3) ∧ (¬ answers → ends (emptied.disputed g h) .conflict 0 3)
    | .three, .noReply | .three, .framing => ends silent .noReply 0 3
    | .three, .collision => ends (emptied.disputed g h) .collision 0 3
    | .three, .contention => ends (emptied.backTo h prior e.silence) .contention 0 3
    | _, _ => False

/-- The final outcome of a RETIRE's RELEASE (R155 to R157): ACCEPT frees the entry, and with force any outcome does,
unconfirmed; without force a refusal, silence and contention return it to its prior state or make it ABSENT at T, and a break
makes it CONFLICT. The answer carries status, code, the unconfirmed flag and the entry's state. An orphaned RETIRE ends the
same way, its response discarded (`State.told`; R100, R176), and so does one on a segment that has been switched off
(`State.ended`; R92). That its pass ends OFF also when the setting is on again by then is the model's reading (log 33), and
that the request is answered before the pass's DISCOVERs its choice (log 14). -/
def Obligations.RetireOutcomesFreeOrReturnTheEntry : Prop :=
  ∀ (s m : State) (g : Seg) (a : Activity) (t : Attempt) (c : Instr) (o : LineOutcome) (h : Handle) (adr : Byte) (force f : Bool)
    (prior : Prior),
    s.attempting g a t → t.frame = a.work.frame → a.work = .retire h adr force →
    (s.entry h).state = .retiring prior f → s.concludes g a t c o m →
    let e := s.entry h
    let ends (u : State) (st : Status) (code unconfirmed : Byte) : Prop :=
      exec c s = .next ((u.told a.owner st (u.entry h).generation
        [code, unconfirmed, stateCode (u.entry h).state]).ended g)
    match force, o with
    | _, .accept _ => ends (m.retired h) .ok 0 0
    | true, .refuse code => ends (m.retired h) .ok code 1
    | true, .noReply | true, .framing | true, .collision | true, .contention => ends (m.retired h) .ok 0 1
    | false, .refuse code => ends (m.backTo h prior 0) .refused code 0
    | false, .noReply => ends (m.backTo h prior (min (e.silence + 1) 7)) .noReply 0 0
    | false, .framing => ends (m.backTo h prior (min (e.silence + 1) 7)) .framing 0 0
    | false, .collision => ends (m.disputed g h) .collision 0 0
    | false, .contention => ends (m.backTo h prior e.silence) .contention 0 0
    | _, .sent | _, .stuck => False

/-- The end of a frame that awaits nothing (R59, R70): a BROADCAST is answered OK (R89), a PARK adds to the parked counts
(R119, R129), an UNPARK_ALL sets the parked count to 0 (R123), step 1 of a resolution leads to step 2 (R142). One that ends
CONTENTION, its repeats used up, answers the BROADCAST so, counts the PARK's contest as lost, leaves the parked count, and
leads to step 2 as well. An orphaned BROADCAST's answer is discarded (`State.told`; R100, R176); a segment that has been
switched off during the activity, and a pass at its limit, end as `State.ended` and `State.contestEnded` say (R92, R137). That
its pass ends OFF also when the setting is on again by then is the model's reading (log 33), and that the request is answered
before the pass's DISCOVERs its choice (log 14). -/
def Obligations.SentFrameEndsItsActivity : Prop :=
  ∀ (s m : State) (g : Seg) (a : Activity) (t : Attempt) (c : Instr) (o : LineOutcome), s.attempting g a t →
    t.frame = a.work.frame → s.concludes g a t c o m →
    (∀ (item : Byte) (data : List Byte), a.work = .broadcast item data →
      (o = .sent → exec c s = .next ((m.told a.owner .ok 0 []).ended g)) ∧
      (o = .contention → exec c s = .next ((m.told a.owner .contention 0 []).ended g))) ∧
    (∀ w : Ident, a.work = .park w →
      (o = .sent → exec c s = .next ((m.updEngine g fun e =>
        { e with parked := min (e.parked + 1) 255, pass := { e.pass with parked := e.pass.parked + 1 } }).contestEnded g)) ∧
      (o = .contention → exec c s = .next ((m.updEngine g fun e =>
        { e with pass := { e.pass with lost := e.pass.lost + 1 } }).contestEnded g))) ∧
    (a.work = .unparkAll →
      (o = .sent → exec c s = .next ((m.updEngine g fun e => { e with parked := 0 }).ended g)) ∧
      (o = .contention → exec c s = .next (m.ended g))) ∧
    ∀ (h : Handle) (adr : Byte) (x : Ident), a.work = .resolveRelease h adr x → o = .sent ∨ o = .contention →
      exec c s = .next (m.stepped g a (.resolvePresence h adr x))

/-- The outcomes of a contest (R69, R125, R126): 48 dominant slots, a class window that runs out, a bad class character, a
break and a CALL_UNBOUND whose last attempt ends CONTENTION lose it; 48 recessive slots end the pass NONE_LEFT, its attached
DISCOVERs answered with the counts (R137, R138; on a segment that has been switched off this is open, log 9). A lost contest
that is the 64th of its pass ends the pass LIMIT, or OFF when its segment has been switched off (`State.contestEnded`; R92,
R137), also when the setting is on again by then, which is the model's reading (log 33). A break is the model's to count as
one of the class window wherever its run began (log 31). -/
def Obligations.ContestOutcomesFollowTheSlots : Prop :=
  ∀ (s : State) (g : Seg) (a : Activity) (t : Attempt), s.attempting g a t →
    let lost (f : Line → Line) : State := (s.updEngine g fun e =>
      { e with
        line := f e.line
        pass := { e.pass with contests := e.pass.contests + 1, lost := e.pass.lost + 1 } }).contestEnded g
    (t.phase = .slots → exec (.contestSlotsEnd g 0) s = .next (lost id)) ∧
    (t.phase = .slots → (s.engine g).staysOn = true → (s.engine g).pass.active = true →
      let counts : PassRecord := { (s.engine g).pass with contests := (s.engine g).pass.contests + 1 }
      ∃ u, exec (.contestSlotsEnd g (BitVec.allOnes 48)) s = .next u ∧ u.entries = s.entries ∧ u.maps = s.maps ∧
        (u.engine g).state = .idle ∧ (u.engine g).activity = none ∧
        (u.engine g).pass = { counts with active := false, attached := [] } ∧
        (s.slotsAgree → s.attachedAnswered u g .ok 1 counts)) ∧
    (t.phase = .classWait →
      (∀ n, 40 ≤ n → exec (.classWindowTimeout g n) s = .next (lost id)) ∧
      (∀ run, 20 ≤ run → exec (.collision g run) s = .next (lost (·.showing .dominant run))) ∧
      ∀ c : LineChar, c.startDominant = true → c.stopRecessive = false ∨ c.mark = true →
        exec (.classCharacter g c) s = .next (lost id)) ∧
    (a.work = .callUnbound → t.phase = .ownBreak → (s.engine g).line.driving = true →
      (s.engine g).settings.retries ≤ a.retries → ∀ run, 24 ≤ run →
        exec (.breakRelease g run) s = .next (lost (·.releasing run)))

/-- The join decision for the identity that a contest has read and the class of its class character (R69, R125, R127, R128): a
new join, a rejoin, a transfer or a park with its notice, as the table gives; the contest is counted, and the follow-up's first
attempt waits for the idle gap. Nothing else changes. -/
def Obligations.JoinDecisionFollowsTheDirectory : Prop :=
  ∀ (s : State) (g : Seg) (a : Activity) (t : Attempt) (c : Byte), s.attempting g a t → t.phase = .classWait →
    let w := t.slotsRead
    let counted : State := s.updEngine g fun y => { y with pass := { y.pass with contests := y.pass.contests + 1 } }
    let leadsTo (u : State) (next : Work) : Prop :=
      exec (.classCharacter g { startDominant := true, data := c, mark := false, stopRecessive := true }) s =
        .next (u.stepped g a next)
    let vacant (b : Byte) : Prop := isAddress b = true ∧ s.inPool g b = true ∧ s.mapSlot g b = .empty
    let lowest (b : Byte) : Prop := vacant b ∧ ∀ b' : Byte, vacant b' → b.toNat ≤ b'.toNat
    let unheld : Prop := ∀ h : Handle, (s.entry h).state = .free ∨ (s.entry h).identity ≠ w
    (unheld → (∃ h : Handle, (s.entry h).state = .free) →
      (∀ b, lowest b → leadsTo (counted.setMap g b .joinHold) (.assign .newJoin w c b)) ∧
      ((¬ ∃ b, vacant b) → leadsTo (counted.noticed .poolFull) (.park w))) ∧
    (unheld → (∀ h : Handle, (s.entry h).state ≠ .free) → leadsTo (counted.noticed .directoryFull) (.park w)) ∧
    ∀ h : Handle, (s.entry h).state ≠ .free → (s.entry h).identity = w →
      (∀ k : Handle, (s.entry k).state ≠ .free → (s.entry k).identity = w → k = h) →
      let e := s.entry h
      (e.segment = g → e.state = .seeded ∨ e.state = .present ∨ e.state = .absent →
        leadsTo counted (.assign (.rejoin h) w c e.address)) ∧
      (e.segment = g → e.state = .conflict ∨ e.inHand → leadsTo (counted.noticed .clash) (.park w)) ∧
      (e.segment ≠ g → e.state = .seeded ∨ e.state = .absent →
        (∀ b, lowest b → leadsTo (counted.setMap g b .joinHold) (.assign .transfer w c b)) ∧
        ((¬ ∃ b, vacant b) → leadsTo (counted.noticed .poolFull) (.park w))) ∧
      (e.segment ≠ g → e.state = .present ∨ e.state = .conflict ∨ e.inHand → leadsTo (counted.noticed .clash) (.park w))

/-- The final outcomes of an ASSIGN (R131 to R135): one that its node accepts applies the rejoin if its entry still stands, or
the decision taken afresh, which fills the lowest FREE entry, transfers the holder, or frees the JOIN_HOLD, raises its notice
and releases the node; any other frees the JOIN_HOLD and counts the contest as lost. Two corners that no run from reset reaches
are the model's choice (log 18): a holder on this very segment parks as well, and a rejoin whose entry is CONFLICT counts as
lost, though R132's condition alone (non-FREE with identity W on the segment at the address) would still be met. The RELEASE of a stray leads to its PARK whatever its outcome (R134). A join,
rejoin or loss that ends the 64th contest of its pass ends the pass LIMIT, or OFF when its segment has been switched off
(`State.contestEnded`; R92, R137). That its pass ends OFF also when the setting is on again by then is the model's reading
(log 33). -/
def Obligations.AssignOutcomesApplyTheFreshDecision : Prop :=
  ∀ (s m : State) (g : Seg) (a : Activity) (t : Attempt) (c : Instr) (o : LineOutcome), s.attempting g a t →
    t.frame = a.work.frame → s.concludes g a t c o m →
    let lost (u : State) : State :=
      (u.updEngine g fun y => { y with pass := { y.pass with lost := y.pass.lost + 1 } }).contestEnded g
    let rejoined (u : State) : State :=
      (u.updEngine g fun y => { y with pass := { y.pass with rejoined := y.pass.rejoined + 1 } }).contestEnded g
    (∀ (kind : JoinKind) (w : Ident) (cls adr : Byte), a.work = .assign kind w cls adr →
      let right : Prop := ∃ k : Byte, o = .accept (identBytes w ++ [k])
      let unheld : Prop := ∀ h : Handle, (s.entry h).state = .free ∨ (s.entry h).identity ≠ w
      (∀ h, kind = .rejoin h →
        let e := s.entry h
        let stands : Prop := e.identity = w ∧ e.segment = g ∧ e.address = adr ∧ e.state ≠ .free ∧ e.state ≠ .conflict
        (¬ (right ∧ stands) → exec c s = .next (lost m)) ∧
        (right → stands →
          (e.inHand → e.cls = cls → exec c s = .next (rejoined (m.setEntry h { e with silence := 0 }))) ∧
          (e.inHand → e.cls ≠ cls → exec c s = .next (rejoined (m.moved h { e with silence := 0, cls := cls }))) ∧
          (e.state = .present → e.cls = cls →
            exec c s = .next (rejoined (m.setEntry h { e with silence := 0, age := 0 }))) ∧
          (¬ e.inHand → e.state ≠ .present ∨ e.cls ≠ cls →
            exec c s = .next (rejoined (m.moved h { e with state := .present, silence := 0, age := 0, cls := cls }))))) ∧
      (kind = .newJoin ∨ kind = .transfer →
        let emptied := m.setMap g adr .empty
        (¬ right → exec c s = .next (lost emptied)) ∧
        (right → unheld →
          (∀ h : Handle, (s.entry h).state = .free → (∀ k : Handle, k < h → (s.entry k).state ≠ .free) →
            exec c s = .next (((((m.setMap g adr (.held h)).moved h
              { state := .present, generation := 0, identity := w, cls := cls, segment := g, address := adr, label := none,
                stride := none, silence := 0, age := 0, claim := none, watchA := (s.entry h).watchA,
                watchB := (s.entry h).watchB }).noticed .joined).updEngine g fun y =>
                  { y with pass := { y.pass with joined := y.pass.joined + 1 } }).contestEnded g)) ∧
          ((∀ h : Handle, (s.entry h).state ≠ .free) →
            exec c s = .next ((emptied.noticed .directoryFull).stepped g a (.releaseStray w adr)))) ∧
        (right → ∀ h : Handle, (s.entry h).state ≠ .free → (s.entry h).identity = w →
          (∀ k : Handle, (s.entry k).state ≠ .free → (s.entry k).identity = w → k = h) →
          let e := s.entry h
          let movable : Prop := e.segment ≠ g ∧ (e.state = .seeded ∨ e.state = .absent)
          (movable → exec c s = .next (rejoined ((((m.setMap e.segment e.address .empty).setMap g adr (.held h)).moved h
            { e with segment := g, address := adr, state := .present, silence := 0, age := 0, cls := cls }).noticed
              .joined))) ∧
          (¬ movable → exec c s = .next ((emptied.noticed .clash).stepped g a (.releaseStray w adr)))))) ∧
    ∀ (w : Ident) (adr : Byte), a.work = .releaseStray w adr → exec c s = .next (m.stepped g a (.park w))

/-- A pass ends LIMIT with the contest activity that runs its 64th contest (R137), and OFF with any line activity during which
its segment was switched off (R92, R137), its DISCOVERs answered with the counts (R138): at the end of a poll, of a PARK, of
an ASSIGN that fails or succeeds and of a contest that is lost. That the pass ends OFF also when the setting is on again by
then is the model's reading of R93 (log 33). -/
def Obligations.PassesEndAtTheLimitOrASwitchOff : Prop :=
  ∀ (s : State) (g : Seg) (a : Activity) (t : Attempt), s.attempting g a t → (s.engine g).pass.active = true →
    let pass := (s.engine g).pass
    let ended (c : Instr) (counts : PassRecord) (st : Status) (reason : Byte) : Prop :=
      ∃ u, exec c s = .next u ∧ (u.engine g).activity = none ∧ (u.engine g).line.attempt = none ∧
        (u.engine g).offTaken = false ∧ (u.engine g).state = (if (s.engine g).settings.on then .idle else .off) ∧
        (u.engine g).pass = { counts with active := false, attached := [] } ∧
        (s.slotsAgree → s.attachedAnswered u g st reason counts)
    let endsBoth (c : Instr) (counts : PassRecord) : Prop :=
      ((s.engine g).staysOn = false → ended c counts .segmentOff 4) ∧
        ((s.engine g).staysOn = true → 64 ≤ pass.contests → ended c counts .ok 2)
    (∀ (m : State) (c : Instr) (o : LineOutcome), t.frame = a.work.frame → s.concludes g a t c o m →
      (∀ h x sg adr, a.work = .poll h x sg adr → (s.engine g).staysOn = false → ended c pass .segmentOff 4) ∧
      ((∃ w, a.work = .park w) ∨ (∃ kind w cls adr, a.work = .assign kind w cls adr ∧ ∀ d, o ≠ .accept d) →
        let counts : PassRecord :=
          match a.work, o with
          | .park _, .sent => { pass with parked := pass.parked + 1 }
          | _, _ => { pass with lost := pass.lost + 1 }
        endsBoth c counts) ∧
      ∀ (kind : JoinKind) (w : Ident) (cls adr k : Byte), a.work = .assign kind w cls adr → o = .accept (identBytes w ++ [k]) →
        (kind = .newJoin ∨ kind = .transfer →
          ((∀ h : Handle, (s.entry h).state = .free ∨ (s.entry h).identity ≠ w) → (∃ h : Handle, (s.entry h).state = .free) →
            endsBoth c { pass with joined := pass.joined + 1 }) ∧
          ∀ h : Handle, (s.entry h).identity = w → (s.entry h).segment ≠ g →
            (s.entry h).state = .seeded ∨ (s.entry h).state = .absent →
            (∀ j : Handle, (s.entry j).state ≠ .free → (s.entry j).identity = w → j = h) →
            endsBoth c { pass with rejoined := pass.rejoined + 1 }) ∧
        ∀ h : Handle, kind = .rejoin h → (s.entry h).identity = w → (s.entry h).segment = g → (s.entry h).address = adr →
          (s.entry h).state ≠ .free → (s.entry h).state ≠ .conflict →
          endsBoth c { pass with rejoined := pass.rejoined + 1 }) ∧
    (t.phase = .slots →
      let counts : PassRecord := { pass with contests := pass.contests + 1, lost := pass.lost + 1 }
      ((s.engine g).staysOn = false → ended (.contestSlotsEnd g 0) counts .segmentOff 4) ∧
      ((s.engine g).staysOn = true → 63 ≤ pass.contests → ended (.contestSlotsEnd g 0) counts .ok 2))

/-- A stuck line (R58, R94, R95): the engine enters FAULT, its activity and pass end, its queue empties, its marks clear,
SEG_FAULT is set in both units, the entries of its queued and carried MOVEs and RETIREs return, the JOIN_HOLD of an ASSIGN is
EMPTY and its contest lost (R129, R134, R135), and every request of the segment is answered SEGMENT_FAULT: those in the queue,
those that wait for the queue, the one carried and those attached to the pass. An enabled SEG_FAULT wakes the part out of
QUIETING and QUIET, and so do an enabled CHANGED and ABSENT through the returns (R182, R207). Every answer carries its entry's
generation after all returns of the event (R37; log 21). Nothing else differs but the line as measured. -/
def Obligations.StuckLineEntersFault : Prop :=
  ∀ (s : State) (g : Seg) (a : Activity) (t : Attempt) (run : Nat), s.attempting g a t → t.phase = .idleWait →
    (s.engine g).line.driving = false → 64 ≤ run →
    let e := s.engine g
    let given (h : Handle) : Prop :=
      (∃ q ∈ e.queue, q.holds h) ∨ (∃ step adr target x, a.work = .move step h adr target x) ∨
        ∃ adr force, a.work = .retire h adr force
    let base : State :=
      match a.work with
      | .assign .newJoin _ _ adr | .assign .transfer _ _ adr => s.setMap g adr .empty
      | _ => s
    let counts : PassRecord :=
      match a.work with
      | .assign _ _ _ _ | .park _ | .releaseStray _ _ => { e.pass with lost := e.pass.lost + 1 }
      | _ => e.pass
    ∃ u, exec (.stuck g run) s = .next u ∧
      u.engine g =
        { e with
          state := .fault, activity := none, queue := [], pollDue := false, discoveryDue := false, tookQueue := false
          offTaken := false
          line := { e.line.showing .dominant run with attempt := none }
          pass := if e.pass.active then { counts with active := false, attached := [] } else counts } ∧
      (∀ k : Seg, k ≠ g → u.engine k = s.engine k) ∧
      base.returnsTo u s.threshold given ∧ (∀ q : PortId, base.returnsTold u s.threshold given q 0x200) ∧
      base.returnsWaking u s.threshold given 0x200 ∧
      (s.slotsAgree →
        (e.pass.active = true → s.attachedAnswered u g .segmentFault 5 counts) ∧
        s.queueAnswered u g .segmentFault 5 ∧ s.waitersAnswered u g .segmentFault ∧
        (∀ (p : PortId) (i : SlotIx), a.owner = some { port := p, slot := some i } →
          ∃ r : Request, s.slot p i = .onLine r ∧
            u.slot p i = .completed r
              (match a.work with
                | .move step h _ _ _ =>
                  let number : Byte := match step with | .one => 1 | .two | .stray => 2 | .three => 3
                  r.reply .segmentFault (u.entry h).generation
                    [0, number, stateCode (u.entry h).state, (u.entry h).address]
                | .retire h _ _ => r.reply .segmentFault (u.entry h).generation [0, 0, stateCode (u.entry h).state]
                | .nodeRead h _ _ _ _ _ | .nodeWrite h _ _ _ _ _ => r.reply .segmentFault (u.entry h).generation []
                | _ => r.reply .segmentFault 0 [])) ∧
        s.answersOnly u fun q j =>
          a.owner = some { port := q, slot := some j } ∨ (q, j) ∈ s.queuedSlots g ∨
            (∃ x, s.waitingFor g q = some (j, x)) ∨ (e.pass.active = true ∧ (q, j) ∈ e.pass.attached))
end

