-- ==== Sys2Proof/Laws/State.lean ====
section
/-! SUPPORT. What each update of the state leaves in each field: one small lemma for each field and update, so that no proof
unfolds a record update. First the five base updates (a port, an entry, an engine, a map slot, a wake signal), then what they
leave for the accessors, then the updates built on them. -/

namespace Sys2Proof.Machine

/-! ### The five base updates, field by field -/

@[simp] theorem State.setPort_pending (s : State) (p : PortId) (x : PortState) : (s.setPort p x).pending = s.pending := by cases p <;> rfl
@[simp] theorem State.setPort_runState (s : State) (p : PortId) (x : PortState) : (s.setPort p x).runState = s.runState := by cases p <;> rfl
@[simp] theorem State.setPort_setup (s : State) (p : PortId) (x : PortState) : (s.setPort p x).setup = s.setup := by cases p <;> rfl
@[simp] theorem State.setPort_prescaler (s : State) (p : PortId) (x : PortState) : (s.setPort p x).prescaler = s.prescaler := by cases p <;> rfl
@[simp] theorem State.setPort_entries (s : State) (p : PortId) (x : PortState) : (s.setPort p x).entries = s.entries := by cases p <;> rfl
@[simp] theorem State.setPort_maps (s : State) (p : PortId) (x : PortState) : (s.setPort p x).maps = s.maps := by cases p <;> rfl
@[simp] theorem State.setPort_seeding (s : State) (p : PortId) (x : PortState) : (s.setPort p x).seeding = s.seeding := by cases p <;> rfl
@[simp] theorem State.setPort_engines (s : State) (p : PortId) (x : PortState) : (s.setPort p x).engines = s.engines := by cases p <;> rfl
@[simp] theorem State.setPort_freeCount (s : State) (p : PortId) (x : PortState) : (s.setPort p x).freeCount = s.freeCount := by cases p <;> rfl

@[simp] theorem State.setEntry_pending (s : State) (h : Handle) (e : Entry) : (s.setEntry h e).pending = s.pending := rfl
@[simp] theorem State.setEntry_runState (s : State) (h : Handle) (e : Entry) : (s.setEntry h e).runState = s.runState := rfl
@[simp] theorem State.setEntry_setup (s : State) (h : Handle) (e : Entry) : (s.setEntry h e).setup = s.setup := rfl
@[simp] theorem State.setEntry_prescaler (s : State) (h : Handle) (e : Entry) : (s.setEntry h e).prescaler = s.prescaler := rfl
@[simp] theorem State.setEntry_maps (s : State) (h : Handle) (e : Entry) : (s.setEntry h e).maps = s.maps := rfl
@[simp] theorem State.setEntry_seeding (s : State) (h : Handle) (e : Entry) : (s.setEntry h e).seeding = s.seeding := rfl
@[simp] theorem State.setEntry_portA (s : State) (h : Handle) (e : Entry) : (s.setEntry h e).portA = s.portA := rfl
@[simp] theorem State.setEntry_portB (s : State) (h : Handle) (e : Entry) : (s.setEntry h e).portB = s.portB := rfl
@[simp] theorem State.setEntry_engines (s : State) (h : Handle) (e : Entry) : (s.setEntry h e).engines = s.engines := rfl
@[simp] theorem State.setEntry_freeCount (s : State) (h : Handle) (e : Entry) : (s.setEntry h e).freeCount = s.freeCount := rfl

@[simp] theorem State.updEngine_pending (s : State) (g : Seg) (f : Engine → Engine) : (s.updEngine g f).pending = s.pending := rfl
@[simp] theorem State.updEngine_runState (s : State) (g : Seg) (f : Engine → Engine) : (s.updEngine g f).runState = s.runState := rfl
@[simp] theorem State.updEngine_setup (s : State) (g : Seg) (f : Engine → Engine) : (s.updEngine g f).setup = s.setup := rfl
@[simp] theorem State.updEngine_prescaler (s : State) (g : Seg) (f : Engine → Engine) : (s.updEngine g f).prescaler = s.prescaler := rfl
@[simp] theorem State.updEngine_entries (s : State) (g : Seg) (f : Engine → Engine) : (s.updEngine g f).entries = s.entries := rfl
@[simp] theorem State.updEngine_maps (s : State) (g : Seg) (f : Engine → Engine) : (s.updEngine g f).maps = s.maps := rfl
@[simp] theorem State.updEngine_seeding (s : State) (g : Seg) (f : Engine → Engine) : (s.updEngine g f).seeding = s.seeding := rfl
@[simp] theorem State.updEngine_portA (s : State) (g : Seg) (f : Engine → Engine) : (s.updEngine g f).portA = s.portA := rfl
@[simp] theorem State.updEngine_portB (s : State) (g : Seg) (f : Engine → Engine) : (s.updEngine g f).portB = s.portB := rfl
@[simp] theorem State.updEngine_freeCount (s : State) (g : Seg) (f : Engine → Engine) : (s.updEngine g f).freeCount = s.freeCount := rfl

@[simp] theorem State.setMap_pending (s : State) (g : Seg) (a : Byte) (m : MapSlot) : (s.setMap g a m).pending = s.pending := by unfold State.setMap; split <;> rfl
@[simp] theorem State.setMap_runState (s : State) (g : Seg) (a : Byte) (m : MapSlot) : (s.setMap g a m).runState = s.runState := by unfold State.setMap; split <;> rfl
@[simp] theorem State.setMap_setup (s : State) (g : Seg) (a : Byte) (m : MapSlot) : (s.setMap g a m).setup = s.setup := by unfold State.setMap; split <;> rfl
@[simp] theorem State.setMap_prescaler (s : State) (g : Seg) (a : Byte) (m : MapSlot) : (s.setMap g a m).prescaler = s.prescaler := by unfold State.setMap; split <;> rfl
@[simp] theorem State.setMap_entries (s : State) (g : Seg) (a : Byte) (m : MapSlot) : (s.setMap g a m).entries = s.entries := by unfold State.setMap; split <;> rfl
@[simp] theorem State.setMap_seeding (s : State) (g : Seg) (a : Byte) (m : MapSlot) : (s.setMap g a m).seeding = s.seeding := by unfold State.setMap; split <;> rfl
@[simp] theorem State.setMap_portA (s : State) (g : Seg) (a : Byte) (m : MapSlot) : (s.setMap g a m).portA = s.portA := by unfold State.setMap; split <;> rfl
@[simp] theorem State.setMap_portB (s : State) (g : Seg) (a : Byte) (m : MapSlot) : (s.setMap g a m).portB = s.portB := by unfold State.setMap; split <;> rfl
@[simp] theorem State.setMap_engines (s : State) (g : Seg) (a : Byte) (m : MapSlot) : (s.setMap g a m).engines = s.engines := by unfold State.setMap; split <;> rfl
@[simp] theorem State.setMap_freeCount (s : State) (g : Seg) (a : Byte) (m : MapSlot) : (s.setMap g a m).freeCount = s.freeCount := by unfold State.setMap; split <;> rfl

@[simp] theorem State.wake_pending (s : State) : (s.wake).pending = s.pending := by unfold State.wake; split <;> rfl
@[simp] theorem State.wake_setup (s : State) : (s.wake).setup = s.setup := by unfold State.wake; split <;> rfl
@[simp] theorem State.wake_prescaler (s : State) : (s.wake).prescaler = s.prescaler := by unfold State.wake; split <;> rfl
@[simp] theorem State.wake_entries (s : State) : (s.wake).entries = s.entries := by unfold State.wake; split <;> rfl
@[simp] theorem State.wake_maps (s : State) : (s.wake).maps = s.maps := by unfold State.wake; split <;> rfl
@[simp] theorem State.wake_seeding (s : State) : (s.wake).seeding = s.seeding := by unfold State.wake; split <;> rfl
@[simp] theorem State.wake_portA (s : State) : (s.wake).portA = s.portA := by unfold State.wake; split <;> rfl
@[simp] theorem State.wake_portB (s : State) : (s.wake).portB = s.portB := by unfold State.wake; split <;> rfl
@[simp] theorem State.wake_engines (s : State) : (s.wake).engines = s.engines := by unfold State.wake; split <;> rfl
@[simp] theorem State.wake_freeCount (s : State) : (s.wake).freeCount = s.freeCount := by unfold State.wake; split <;> rfl

/-! ### The base updates through the accessors -/

@[simp] theorem State.setPort_port_same (s : State) (p : PortId) (x : PortState) : (s.setPort p x).port p = x := by
  cases p <;> rfl

@[simp] theorem State.setPort_port_other (s : State) (p : PortId) (x : PortState) :
    (s.setPort p x).port p.other = s.port p.other := by cases p <;> rfl

theorem State.setPort_port (s : State) (p q : PortId) (x : PortState) :
    (s.setPort p x).port q = if q = p then x else s.port q := by cases p <;> cases q <;> rfl

@[simp] theorem State.setPort_setPort (s : State) (p : PortId) (x y : PortState) :
    (s.setPort p x).setPort p y = s.setPort p y := by cases p <;> rfl

@[simp] theorem State.setPort_self (s : State) (p : PortId) : s.setPort p (s.port p) = s := by cases p <;> rfl

@[simp] theorem State.updPort_eq (s : State) (p : PortId) (f : PortState → PortState) :
    s.updPort p f = s.setPort p (f (s.port p)) := rfl

@[simp] theorem PortId.other_other (p : PortId) : p.other.other = p := by cases p <;> rfl

@[simp] theorem PortId.other_ne (p : PortId) : p.other ≠ p := by cases p <;> decide

@[simp] theorem PortId.ne_other (p : PortId) : p ≠ p.other := by cases p <;> decide

@[simp] theorem State.setEntry_entry_same (s : State) (h : Handle) (e : Entry) : (s.setEntry h e).entry h = e := by
  simp [State.setEntry, State.entry]

theorem State.setEntry_entry (s : State) (h k : Handle) (e : Entry) :
    (s.setEntry h e).entry k = if k = h then e else s.entry k := by
  simp only [State.setEntry, State.entry, Fin.getElem_fin, Vector.getElem_set, Fin.ext_iff, eq_comm]

theorem State.setEntry_entry_ne (s : State) (h k : Handle) (e : Entry) (n : k ≠ h) : (s.setEntry h e).entry k = s.entry k := by
  simp [State.setEntry_entry, n]

@[simp] theorem State.setEntry_setEntry (s : State) (h : Handle) (e f : Entry) :
    (s.setEntry h e).setEntry h f = s.setEntry h f := by simp [State.setEntry]

@[simp] theorem State.setEntry_self (s : State) (h : Handle) : s.setEntry h (s.entry h) = s := by
  simp [State.setEntry, State.entry]

@[simp] theorem State.updEngine_engine_same (s : State) (g : Seg) (f : Engine → Engine) :
    (s.updEngine g f).engine g = f (s.engine g) := by simp [State.updEngine, State.engine]

theorem State.updEngine_engine (s : State) (g k : Seg) (f : Engine → Engine) :
    (s.updEngine g f).engine k = if k = g then f (s.engine g) else s.engine k := by
  simp only [State.updEngine, State.engine, Fin.getElem_fin, Vector.getElem_set, Fin.ext_iff, eq_comm]

theorem State.updEngine_engine_ne (s : State) (g k : Seg) (f : Engine → Engine) (n : k ≠ g) :
    (s.updEngine g f).engine k = s.engine k := by simp [State.updEngine_engine, n]

theorem State.updEngine_updEngine (s : State) (g : Seg) (f k : Engine → Engine) :
    (s.updEngine g f).updEngine g k = s.updEngine g (fun e => k (f e)) := by simp [State.updEngine, State.engine]

@[simp] theorem State.updEngine_id (s : State) (g : Seg) : s.updEngine g (fun e => e) = s := by
  simp [State.updEngine, State.engine]

@[simp] theorem State.setPort_entry (s : State) (p : PortId) (x : PortState) (h : Handle) : (s.setPort p x).entry h = s.entry h := by simp [State.entry]
@[simp] theorem State.setPort_engine (s : State) (p : PortId) (x : PortState) (k : Seg) : (s.setPort p x).engine k = s.engine k := by simp [State.engine]
@[simp] theorem State.setPort_segSetup (s : State) (p : PortId) (x : PortState) (k : Seg) : (s.setPort p x).segSetup k = s.segSetup k := by simp [State.segSetup]
@[simp] theorem State.setPort_threshold (s : State) (p : PortId) (x : PortState) (k : Seg) : (s.setPort p x).threshold k = s.threshold k := by simp [State.threshold]
@[simp] theorem State.setPort_permits (s : State) (p : PortId) (x : PortState) (q : PortId) (k : Seg) : (s.setPort p x).permits q k = s.permits q k := by cases q <;> simp [State.permits, State.segSetup]
@[simp] theorem State.setPort_mapSlot (s : State) (p : PortId) (x : PortState) (k : Seg) (b : Byte) : (s.setPort p x).mapSlot k b = s.mapSlot k b := by simp [State.mapSlot]
@[simp] theorem State.setPort_inPool (s : State) (p : PortId) (x : PortState) (k : Seg) (b : Byte) : (s.setPort p x).inPool k b = s.inPool k b := by simp only [State.inPool, State.setPort_segSetup]

@[simp] theorem State.setEntry_engine (s : State) (h : Handle) (e : Entry) (k : Seg) : (s.setEntry h e).engine k = s.engine k := by simp [State.engine]
@[simp] theorem State.setEntry_segSetup (s : State) (h : Handle) (e : Entry) (k : Seg) : (s.setEntry h e).segSetup k = s.segSetup k := by simp [State.segSetup]
@[simp] theorem State.setEntry_threshold (s : State) (h : Handle) (e : Entry) (k : Seg) : (s.setEntry h e).threshold k = s.threshold k := by simp [State.threshold]
@[simp] theorem State.setEntry_permits (s : State) (h : Handle) (e : Entry) (q : PortId) (k : Seg) : (s.setEntry h e).permits q k = s.permits q k := by cases q <;> simp [State.permits, State.segSetup]
@[simp] theorem State.setEntry_mapSlot (s : State) (h : Handle) (e : Entry) (k : Seg) (b : Byte) : (s.setEntry h e).mapSlot k b = s.mapSlot k b := by simp [State.mapSlot]
@[simp] theorem State.setEntry_inPool (s : State) (h : Handle) (e : Entry) (k : Seg) (b : Byte) : (s.setEntry h e).inPool k b = s.inPool k b := by simp only [State.inPool, State.setEntry_segSetup]
@[simp] theorem State.setEntry_port (s : State) (h : Handle) (e : Entry) (q : PortId) : (s.setEntry h e).port q = s.port q := by cases q <;> simp [State.port]
@[simp] theorem State.setEntry_slot (s : State) (h : Handle) (e : Entry) (q : PortId) (i : SlotIx) : (s.setEntry h e).slot q i = s.slot q i := by cases q <;> simp [State.slot, State.port]

@[simp] theorem State.updEngine_entry (s : State) (g : Seg) (f : Engine → Engine) (h : Handle) : (s.updEngine g f).entry h = s.entry h := by simp [State.entry]
@[simp] theorem State.updEngine_segSetup (s : State) (g : Seg) (f : Engine → Engine) (k : Seg) : (s.updEngine g f).segSetup k = s.segSetup k := by simp [State.segSetup]
@[simp] theorem State.updEngine_permits (s : State) (g : Seg) (f : Engine → Engine) (q : PortId) (k : Seg) : (s.updEngine g f).permits q k = s.permits q k := by cases q <;> simp [State.permits, State.segSetup]
@[simp] theorem State.updEngine_mapSlot (s : State) (g : Seg) (f : Engine → Engine) (k : Seg) (b : Byte) : (s.updEngine g f).mapSlot k b = s.mapSlot k b := by simp [State.mapSlot]
@[simp] theorem State.updEngine_inPool (s : State) (g : Seg) (f : Engine → Engine) (k : Seg) (b : Byte) : (s.updEngine g f).inPool k b = s.inPool k b := by simp only [State.inPool, State.updEngine_segSetup]
@[simp] theorem State.updEngine_port (s : State) (g : Seg) (f : Engine → Engine) (q : PortId) : (s.updEngine g f).port q = s.port q := by cases q <;> simp [State.port]
@[simp] theorem State.updEngine_slot (s : State) (g : Seg) (f : Engine → Engine) (q : PortId) (i : SlotIx) : (s.updEngine g f).slot q i = s.slot q i := by cases q <;> simp [State.slot, State.port]

@[simp] theorem State.setMap_entry (s : State) (g : Seg) (a : Byte) (m : MapSlot) (h : Handle) : (s.setMap g a m).entry h = s.entry h := by simp [State.entry]
@[simp] theorem State.setMap_engine (s : State) (g : Seg) (a : Byte) (m : MapSlot) (k : Seg) : (s.setMap g a m).engine k = s.engine k := by simp [State.engine]
@[simp] theorem State.setMap_segSetup (s : State) (g : Seg) (a : Byte) (m : MapSlot) (k : Seg) : (s.setMap g a m).segSetup k = s.segSetup k := by simp [State.segSetup]
@[simp] theorem State.setMap_threshold (s : State) (g : Seg) (a : Byte) (m : MapSlot) (k : Seg) : (s.setMap g a m).threshold k = s.threshold k := by simp [State.threshold]
@[simp] theorem State.setMap_permits (s : State) (g : Seg) (a : Byte) (m : MapSlot) (q : PortId) (k : Seg) : (s.setMap g a m).permits q k = s.permits q k := by cases q <;> simp [State.permits, State.segSetup]
@[simp] theorem State.setMap_inPool (s : State) (g : Seg) (a : Byte) (m : MapSlot) (k : Seg) (b : Byte) : (s.setMap g a m).inPool k b = s.inPool k b := by simp only [State.inPool, State.setMap_segSetup]
@[simp] theorem State.setMap_port (s : State) (g : Seg) (a : Byte) (m : MapSlot) (q : PortId) : (s.setMap g a m).port q = s.port q := by cases q <;> simp [State.port]
@[simp] theorem State.setMap_slot (s : State) (g : Seg) (a : Byte) (m : MapSlot) (q : PortId) (i : SlotIx) : (s.setMap g a m).slot q i = s.slot q i := by cases q <;> simp [State.slot, State.port]

@[simp] theorem State.wake_entry (s : State) (h : Handle) : (s.wake).entry h = s.entry h := by simp [State.entry]
@[simp] theorem State.wake_engine (s : State) (k : Seg) : (s.wake).engine k = s.engine k := by simp [State.engine]
@[simp] theorem State.wake_segSetup (s : State) (k : Seg) : (s.wake).segSetup k = s.segSetup k := by simp [State.segSetup]
@[simp] theorem State.wake_threshold (s : State) (k : Seg) : (s.wake).threshold k = s.threshold k := by simp [State.threshold]
@[simp] theorem State.wake_permits (s : State) (q : PortId) (k : Seg) : (s.wake).permits q k = s.permits q k := by cases q <;> simp [State.permits, State.segSetup]
@[simp] theorem State.wake_mapSlot (s : State) (k : Seg) (b : Byte) : (s.wake).mapSlot k b = s.mapSlot k b := by simp [State.mapSlot]
@[simp] theorem State.wake_inPool (s : State) (k : Seg) (b : Byte) : (s.wake).inPool k b = s.inPool k b := by simp only [State.inPool, State.wake_segSetup]
@[simp] theorem State.wake_port (s : State) (q : PortId) : (s.wake).port q = s.port q := by cases q <;> simp [State.port]
@[simp] theorem State.wake_slot (s : State) (q : PortId) (i : SlotIx) : (s.wake).slot q i = s.slot q i := by cases q <;> simp [State.slot, State.port]

/-! ### Address maps -/

/-- The place of a line address in its map, and back. -/
theorem mapIx_isSome (a : Byte) : (mapIx a).isSome = (decide (1 ≤ a.toNat) && decide (a.toNat ≤ 200)) := by
  unfold mapIx
  split <;> simp <;> omega

theorem mapIx_inj (a b : Byte) (k : Fin 200) (ha : mapIx a = some k) (hb : mapIx b = some k) : a = b := by
  unfold mapIx at ha hb
  split at ha <;> split at hb <;> simp at ha hb
  apply BitVec.eq_of_toNat_eq
  have := congrArg Fin.val (ha.trans hb.symm)
  simp at this
  omega

/-- Writing a map slot changes that slot alone. -/
theorem State.setMap_mapSlot (s : State) (g k : Seg) (a b : Byte) (m : MapSlot) :
    (s.setMap g a m).mapSlot k b = if k = g ∧ b = a ∧ (mapIx a).isSome then m else s.mapSlot k b := by
  unfold State.setMap State.mapSlot
  cases ha : mapIx a with
  | none => simp
  | some x =>
    cases hb : mapIx b with
    | none => have : b ≠ a := by rintro rfl; simp [ha] at hb
              simp [this]
    | some y =>
      by_cases hk : k = g
      · subst hk
        by_cases hxy : x = y
        · subst hxy
          have : b = a := mapIx_inj b a x hb ha
          simp [this]
        · have hne : b ≠ a := by rintro rfl; rw [ha] at hb; exact hxy (Option.some.inj hb)
          have hv : x.val ≠ y.val := fun h => hxy (Fin.ext h)
          simp [hne, hv]
      · have hv : g.val ≠ k.val := fun h => hk (Fin.ext h.symm)
        simp [hk, hv]

/-! ### The updates built on the base updates -/

theorem State.updLine_eq (s : State) (g : Seg) (f : Line → Line) :
    s.updLine g f = s.updEngine g fun e => { e with line := f e.line } := rfl

theorem State.updPass_eq (s : State) (g : Seg) (f : PassRecord → PassRecord) :
    s.updPass g f = s.updEngine g fun e => { e with pass := f e.pass } := rfl

theorem State.dropResolution_eq (s : State) (g : Seg) (h : Handle) :
    s.dropResolution g h = s.updEngine g fun e => { e with resolution := e.resolution.filter (· != h) } := rfl

theorem State.appendResolution_eq (s : State) (g : Seg) (h : Handle) (n : h ∉ (s.engine g).resolution) :
    s.appendResolution g h = s.updEngine g fun e => { e with resolution := e.resolution ++ [h] } := by
  simp [State.appendResolution, State.updEngine, n]

theorem State.appendResolution_of_mem (s : State) (g : Seg) (h : Handle) (m : h ∈ (s.engine g).resolution) :
    s.appendResolution g h = s := by
  simp [State.appendResolution, State.updEngine, State.engine] at m ⊢
  simp [m]

/-- Updates of different registers commute. -/
theorem State.updEngine_setPort (s : State) (g : Seg) (f : Engine → Engine) (p : PortId) (x : PortState) :
    (s.setPort p x).updEngine g f = (s.updEngine g f).setPort p x := by cases p <;> rfl

theorem State.updEngine_setEntry (s : State) (g : Seg) (f : Engine → Engine) (h : Handle) (e : Entry) :
    (s.setEntry h e).updEngine g f = (s.updEngine g f).setEntry h e := rfl

theorem State.updEngine_setMap (s : State) (g k : Seg) (f : Engine → Engine) (a : Byte) (m : MapSlot) :
    (s.setMap k a m).updEngine g f = (s.updEngine g f).setMap k a m := by
  unfold State.setMap; split <;> rfl

theorem State.setEntry_setPort (s : State) (h : Handle) (e : Entry) (p : PortId) (x : PortState) :
    (s.setPort p x).setEntry h e = (s.setEntry h e).setPort p x := by cases p <;> rfl

theorem State.setMap_setPort (s : State) (g : Seg) (a : Byte) (m : MapSlot) (p : PortId) (x : PortState) :
    (s.setPort p x).setMap g a m = (s.setMap g a m).setPort p x := by
  cases p <;> (unfold State.setMap; split <;> rfl)

/-! ### The run state -/

@[simp] theorem State.wake_wake (s : State) : s.wake.wake = s.wake := by
  unfold State.wake; cases h : s.runState <;> simp [h]

@[simp] theorem State.wake_isStarting (s : State) : s.wake.runState.isStarting = s.runState.isStarting := by
  unfold State.wake; cases h : s.runState <;> simp [h, RunState.isStarting]

end Sys2Proof.Machine
end

