-- ==== Sys2Proof/Laws/Notices.lean ====
section
/-! SUPPORT. What raising a notice and changing an entry do, said once: `raise` is `noticed`, and `change` is `moved` when a
generation-bearing field differs and a plain entry update when none does. -/

namespace Sys2Proof.Machine

/-- A wake signal writes the run state alone. -/
theorem State.wake_eq (s : State) : s.wake = { s with runState := s.runState.woken } := by
  unfold State.wake RunState.woken
  cases h : s.runState <;> simp [← h]

@[simp] theorem State.wake_runState (s : State) : s.wake.runState = s.runState.woken := by simp [State.wake_eq]

@[simp] theorem RunState.woken_woken (r : RunState) : r.woken.woken = r.woken := by cases r <;> rfl

@[simp] theorem RunState.woken_isStarting (r : RunState) : r.woken.isStarting = r.isStarting := by cases r <;> rfl

/-- One notice unit takes a flag. -/
theorem State.raiseAt_eq (s : State) (p : PortId) (n : Notice) :
    s.raiseAt p n =
      { s.setPort p ((s.port p).flagged n) with
        runState := if (s.port p).notices.mask.getLsbD n.bit then s.runState.woken else s.runState } := by
  unfold State.raiseAt
  by_cases hm : (s.port p).notices.mask.getLsbD n.bit = true <;>
    cases p <;> simp [hm, State.wake_eq, State.setPort, PortState.flagged, Notice.mask]

/-- One notice unit is handed a handle. -/
theorem State.handTo_eq (s : State) (p : PortId) (h : Handle) :
    s.handTo p h =
      { s.setPort p ((s.port p).handed true h) with
        runState := if (s.port p).notices.mask.getLsbD changedBit then s.runState.woken else s.runState } := by
  unfold State.handTo
  by_cases hm : (s.port p).notices.mask.getLsbD changedBit = true <;>
    cases p <;> simp [hm, State.wake_eq, State.setPort, PortState.handed, NoticeUnit.handed]

/-- Raising a notice sets its flag in both units, and wakes the part when a unit has it enabled; nothing else. -/
theorem State.raise_eq (s : State) (n : Notice) : s.raise n = s.noticed n := by
  unfold State.raise State.noticed
  simp only [State.raiseAt_eq, State.setPort, State.port]
  by_cases ha : s.portA.notices.mask.getLsbD n.bit = true <;> by_cases hb : s.portB.notices.mask.getLsbD n.bit = true <;>
    simp [ha, hb]

/-- Handing over writes the change sets of the watching ports, and wakes the part when one has CHANGED enabled. -/
theorem State.handOver_eq (s : State) (h : Handle) :
    s.handOver h =
      { s with
        portA := s.portA.handed (s.entry h).watchA h
        portB := s.portB.handed (s.entry h).watchB h
        runState :=
          if ((s.entry h).watchA && s.portA.notices.mask.getLsbD 1) ||
            ((s.entry h).watchB && s.portB.notices.mask.getLsbD 1) then s.runState.woken else s.runState } := by
  unfold State.handOver
  simp only [Entry.watches]
  rcases Bool.eq_false_or_eq_true (s.entry h).watchA with hwa | hwa <;>
    rcases Bool.eq_false_or_eq_true (s.entry h).watchB with hwb | hwb <;>
    rcases Bool.eq_false_or_eq_true (s.portA.notices.mask.getLsbD 1) with ha | ha <;>
    rcases Bool.eq_false_or_eq_true (s.portB.notices.mask.getLsbD 1) with hb | hb <;>
      simp only [ha, hb, hwa, hwb, State.handTo_eq, State.setPort, State.port, changedBit, PortState.handed,
        NoticeUnit.handed, Bool.and_true, Bool.and_false, Bool.or_true, Bool.or_false, if_true, if_false,
        RunState.woken_woken, Bool.false_eq_true]

theorem nextGeneration_eq (g : Byte) : nextGeneration g = generationAfter g := by
  unfold nextGeneration generationAfter
  by_cases hv : g = 255
  · simp [hv]
  · have : g.toNat ≠ 255 := fun hh => hv (BitVec.eq_of_toNat_eq (by simpa using hh))
    rw [if_neg hv, if_neg this]

/-- A change of an entry in which a generation-bearing field differs. -/
theorem State.change_moved (s : State) (h : Handle) (e : Entry) (d : bearingDiffers (s.entry h) e = true)
    (wa : e.watchA = (s.entry h).watchA) (wb : e.watchB = (s.entry h).watchB) : s.change h e = s.moved h e := by
  unfold State.change
  rw [if_pos d, State.handOver_eq, nextGeneration_eq, State.setEntry_entry_same]
  unfold State.moved
  rw [← wa, ← wb]
  rfl

/-- A change of an entry in which no generation-bearing field differs. -/
theorem State.change_same (s : State) (h : Handle) (e : Entry) (d : bearingDiffers (s.entry h) e = false)
    (hg : e.generation = (s.entry h).generation) : s.change h e = s.setEntry h e := by
  simp only [State.change, d, ← hg]
  rfl

/-- A change of state is a generation-bearing difference. -/
theorem bearingDiffers_state (e f : Entry) (d : stateCode e.state ≠ stateCode f.state) : bearingDiffers e f = true := by
  simp [bearingDiffers, d]

/-! ### What `noticed` and `moved` leave -/

@[simp] theorem State.noticed_entry (s : State) (n : Notice) (h : Handle) : (s.noticed n).entry h = s.entry h := rfl

@[simp] theorem State.noticed_engine (s : State) (n : Notice) (g : Seg) : (s.noticed n).engine g = s.engine g := rfl

@[simp] theorem State.noticed_mapSlot (s : State) (n : Notice) (g : Seg) (a : Byte) :
    (s.noticed n).mapSlot g a = s.mapSlot g a := rfl

@[simp] theorem State.noticed_pending (s : State) (n : Notice) : (s.noticed n).pending = s.pending := rfl

@[simp] theorem State.noticed_port (s : State) (n : Notice) (p : PortId) : (s.noticed n).port p = (s.port p).flagged n := by
  cases p <;> rfl

@[simp] theorem State.moved_entry_same (s : State) (h : Handle) (e : Entry) :
    (s.moved h e).entry h = { e with generation := generationAfter (s.entry h).generation } := by
  simp [State.moved, State.entry]

theorem State.moved_entry_ne (s : State) (h k : Handle) (e : Entry) (n : k ≠ h) : (s.moved h e).entry k = s.entry k := by
  have : h.val ≠ k.val := fun x => n (Fin.ext x.symm)
  simp [State.moved, State.entry, this]

@[simp] theorem State.moved_engine (s : State) (h : Handle) (e : Entry) (g : Seg) : (s.moved h e).engine g = s.engine g := rfl

@[simp] theorem State.moved_mapSlot (s : State) (h : Handle) (e : Entry) (g : Seg) (a : Byte) :
    (s.moved h e).mapSlot g a = s.mapSlot g a := rfl

@[simp] theorem State.moved_pending (s : State) (h : Handle) (e : Entry) : (s.moved h e).pending = s.pending := rfl

@[simp] theorem State.moved_port (s : State) (h : Handle) (e : Entry) (p : PortId) :
    (s.moved h e).port p = (s.port p).handed ((s.entry h).watches p) h := by cases p <;> rfl

@[simp] theorem State.moved_slot (s : State) (h : Handle) (e : Entry) (p : PortId) (i : SlotIx) :
    (s.moved h e).slot p i = s.slot p i := by simp [State.slot, PortState.handed]

@[simp] theorem State.noticed_slot (s : State) (n : Notice) (p : PortId) (i : SlotIx) :
    (s.noticed n).slot p i = s.slot p i := by simp [State.slot, PortState.flagged]

/-! ### `change` in general: what every proof about a directory event needs -/

/-- Handing over writes the ports' change sets and the run state alone. -/
theorem State.handOver_frame (s : State) (h : Handle) :
    (s.handOver h).pending = s.pending ∧ (s.handOver h).setup = s.setup ∧ (s.handOver h).prescaler = s.prescaler ∧
      (s.handOver h).entries = s.entries ∧ (s.handOver h).maps = s.maps ∧ (s.handOver h).seeding = s.seeding ∧
      (s.handOver h).engines = s.engines ∧ (s.handOver h).freeCount = s.freeCount := by
  simp [State.handOver_eq]

@[simp] theorem State.change_pending (s : State) (h : Handle) (e : Entry) : (s.change h e).pending = s.pending := by
  unfold State.change; split <;> simp [State.handOver_frame]

@[simp] theorem State.change_setup (s : State) (h : Handle) (e : Entry) : (s.change h e).setup = s.setup := by
  unfold State.change; split <;> simp [State.handOver_frame]

@[simp] theorem State.change_prescaler (s : State) (h : Handle) (e : Entry) : (s.change h e).prescaler = s.prescaler := by
  unfold State.change; split <;> simp [State.handOver_frame]

@[simp] theorem State.change_maps (s : State) (h : Handle) (e : Entry) : (s.change h e).maps = s.maps := by
  unfold State.change; split <;> simp [State.handOver_frame]

@[simp] theorem State.change_seeding (s : State) (h : Handle) (e : Entry) : (s.change h e).seeding = s.seeding := by
  unfold State.change; split <;> simp [State.handOver_frame]

@[simp] theorem State.change_engines (s : State) (h : Handle) (e : Entry) : (s.change h e).engines = s.engines := by
  unfold State.change; split <;> simp [State.handOver_frame]

@[simp] theorem State.change_freeCount (s : State) (h : Handle) (e : Entry) : (s.change h e).freeCount = s.freeCount := by
  unfold State.change; split <;> simp [State.handOver_frame]

/-- A directory event writes one entry: the content given, with the generation that R12 gives. -/
theorem State.change_entry (s : State) (h k : Handle) (e : Entry) :
    (s.change h e).entry k =
      if k = h then
        { e with generation :=
            if bearingDiffers (s.entry h) e then nextGeneration (s.entry h).generation else (s.entry h).generation }
      else s.entry k := by
  have hf := fun (t : State) => (State.handOver_frame t h).2.2.2.1
  unfold State.change
  split <;> rename_i hb
  · rw [State.entry, hf, ← State.entry, State.setEntry_entry]
  · rw [State.setEntry_entry]

@[simp] theorem State.change_mapSlot (s : State) (h : Handle) (e : Entry) (g : Seg) (a : Byte) :
    (s.change h e).mapSlot g a = s.mapSlot g a := by simp [State.mapSlot]

@[simp] theorem State.change_engine (s : State) (h : Handle) (e : Entry) (g : Seg) : (s.change h e).engine g = s.engine g := by
  simp [State.engine]

/-- A directory event leaves both ports' slots, lists and exchanges as they are. -/
theorem State.change_ports (s : State) (h : Handle) (e : Entry) (p : PortId) :
    ((s.change h e).port p).slots = (s.port p).slots ∧ ((s.change h e).port p).waiting = (s.port p).waiting ∧
      ((s.change h e).port p).completed = (s.port p).completed ∧ ((s.change h e).port p).waitsFor = (s.port p).waitsFor ∧
      ((s.change h e).port p).previous = (s.port p).previous ∧ ((s.change h e).port p).exchange = (s.port p).exchange ∧
      ((s.change h e).port p).notices.mask = (s.port p).notices.mask ∧
      ((s.change h e).port p).notices.sticky = (s.port p).notices.sticky := by
  unfold State.change
  split
  · rw [State.handOver_eq]
    cases p <;> exact ⟨rfl, rfl, rfl, rfl, rfl, rfl, rfl, rfl⟩
  · cases p <;> exact ⟨rfl, rfl, rfl, rfl, rfl, rfl, rfl, rfl⟩

end Sys2Proof.Machine
end

