-- ==== Sys2Proof/Laws/Exchanges.lean ====
section
/-! SUPPORT. Bits and bytes on a clocked line, and the removal at an exchange's end, said once: whole bytes read back from their
bits, a byte cut short is none, and `deliver` is `delivered`. -/

namespace Sys2Proof.Machine

/-! ### Bits and bytes -/

@[simp] theorem byteBits_length (d : Byte) : (byteBits d).length = 8 := rfl

theorem byteOf_getLsbD (d : Byte) :
    byteOf (d.getLsbD 7) (d.getLsbD 6) (d.getLsbD 5) (d.getLsbD 4) (d.getLsbD 3) (d.getLsbD 2) (d.getLsbD 1) (d.getLsbD 0) = d := by
  revert d; decide +kernel

/-- A byte's bits read back. -/
theorem bytesOfBits_byteBits (d : Byte) (more : List Bool) : bytesOfBits (byteBits d ++ more) = d :: bytesOfBits more := by
  simp only [byteBits, List.map_cons, List.map_nil, List.cons_append, List.nil_append, bytesOfBits, byteOf_getLsbD]

/-- Whole bytes' bits read back. -/
theorem bytesOfBits_flatMap (bytes : List Byte) (more : List Bool) :
    bytesOfBits (bytes.flatMap byteBits ++ more) = bytes ++ bytesOfBits more := by
  induction bytes with
  | nil => rfl
  | cons d ds ih => simp only [List.flatMap_cons, List.append_assoc, bytesOfBits_byteBits, ih, List.cons_append]

/-- Fewer than 8 bits are no byte. -/
theorem bytesOfBits_short (bits : List Bool) (n : bits.length < 8) : bytesOfBits bits = [] := by
  unfold bytesOfBits; split
  · simp only [List.length_cons] at n; omega
  · rfl

theorem flatMap_byteBits_length (bytes : List Byte) : (bytes.flatMap byteBits).length = 8 * bytes.length := by
  induction bytes with
  | nil => rfl
  | cons d ds ih => simp only [List.flatMap_cons, List.length_append, byteBits_length, ih, List.length_cons]; omega

/-- The bits of an image read back. -/
theorem imageOfBits_flatMap (m : Image) : imageOfBits (m.toList.flatMap byteBits) = m := by
  have h := bytesOfBits_flatMap m.toList []
  rw [List.append_nil] at h
  apply Vector.ext
  intro k hk
  simp [imageOfBits, h, bytesOfBits]

/-- A low answer bit and the bits of an image are a whole read of that image. -/
theorem setupRead_image (m : Image) : setupRead (false :: m.toList.flatMap byteBits) = some (some m) := by
  have hl : (m.toList.flatMap byteBits).length = Config.imageBits := by
    rw [flatMap_byteBits_length]; simp [Config.imageBits]
  simp only [setupRead, hl, if_true, imageOfBits_flatMap]

@[simp] theorem setupRead_none : setupRead [true] = some none := rfl

/-! ### Responses -/

theorem Response.frame_eq (r : Response) : r.frame = responseBytes r := rfl

theorem Exchange.bytes_length (x : Exchange) (r : Response) (hr : x.response = some r) :
    x.bytes.length = 8 + r.body.length := by
  simp [Exchange.bytes, hr, Response.frame, bytes16]; omega

theorem Slot.holds_iff (c : Slot) (r : Response) : c.holds r = true ↔ c.response? = some r := by
  cases c <;> simp [Slot.holds, Slot.response?]

/-- The removal at the end of an exchange writes its port alone. -/
theorem State.deliver_eq (s : State) (p : PortId) (x : Exchange) (n : Nat) :
    s.deliver p x n = s.setPort p (s.delivered p x n) := by
  unfold State.deliver State.delivered
  cases hs : x.slot with
  | none => simp [PortState.afterDelivery, hs]
  | some i =>
    cases hr : x.response with
    | none => simp [PortState.afterDelivery, hs, hr]
    | some r =>
      have hh : ((s.port p).slots[i]).holds r = true ↔ (s.slot p i).response? = some r := Slot.holds_iff _ _
      dsimp only
      by_cases hset : s.runState.isSettling = true
      · simp [hset]
      · simp only [hset, Bool.false_eq_true, if_false, State.updPort_eq, PortState.afterDelivery, hs, hr,
          Exchange.bytes_length x r hr, hh]
        by_cases hc : (s.slot p i).response? = some r ∧ 8 * (8 + r.body.length) ≤ n
        · rw [if_pos ⟨hc.2, hc.1⟩, if_pos ⟨hc.1, hc.2, by simp⟩]; rfl
        · rw [if_neg fun x => hc ⟨x.2, x.1⟩, if_neg fun x => hc ⟨x.1, x.2.1⟩]

/-- The end of an exchange whose whole bytes hold no request. -/
theorem judgeFrame_zero (more : List Byte) : judgeFrame (0 :: more) = .nothing := by simp [judgeFrame]

end Sys2Proof.Machine
end

