-- ==== Sys2Proof/Laws/Levels.lean ====
section
/-! SUPPORT. The levels of a line, said once: the measuring operations in the words of the statements, the wired level, what the
filter leaves of a line, and what one reference cycle leaves of the part. -/

namespace Sys2Proof.Machine

/-! ### Measuring a line -/

theorem Line.sawRecessive_eq (l : Line) (run : Nat) : l.sawRecessive run = l.showing .recessive run := rfl

theorem Line.sawDominant_eq (l : Line) (run : Nat) : l.sawDominant run = l.showing .dominant run := rfl

theorem Line.breakReleased_eq (l : Line) (run : Nat) : l.breakReleased run = l.releasing run := rfl

@[simp] theorem Line.showing_attempt (l : Line) (lv : Level) (n : Nat) : (l.showing lv n).attempt = l.attempt := rfl
@[simp] theorem Line.showing_driving (l : Line) (lv : Level) (n : Nat) : (l.showing lv n).driving = l.driving := rfl
@[simp] theorem Line.releasing_attempt (l : Line) (n : Nat) : (l.releasing n).attempt = l.attempt := rfl
@[simp] theorem Line.releasing_driving (l : Line) (n : Nat) : (l.releasing n).driving = false := rfl
@[simp] theorem Line.releasing_pin (l : Line) (n : Nat) : (l.releasing n).pin = l.pin := rfl

/-! ### What is driven -/

/-- A line is dominant where any station drives dominant (R49). -/
theorem wired_dominant_iff (l : List Level) : wired l = .dominant ↔ .dominant ∈ l := by
  unfold wired; split <;> simp_all

/-- A bit that the part sends recessive (R52, R63). -/
theorem Attempt.sends_recessive_iff (a : Attempt) (k : Nat) :
    a.sends k = some .recessive ↔ a.sendingBit k = true ∧ a.frame.bits.getD k false = true := by
  unfold Attempt.sends
  cases h : a.frame.bits[k]? with
  | none => simp [h]
  | some b => cases b <;> simp [h]

/-- A bit that the part sends dominant (R49, R52). -/
theorem Attempt.sends_dominant_iff (a : Attempt) (k : Nat) :
    a.sends k = some .dominant ↔ a.sendingBit k = true ∧ a.frame.bits[k]? = some false := by
  unfold Attempt.sends
  cases h : a.frame.bits[k]? with
  | none => simp
  | some b => cases b <;> simp

/-! ### The filter and the cycle -/

@[simp] theorem Line.sample_attempt (q : Nat) (r : Level) (l : Line) : (l.sample q r).attempt = l.attempt := by
  unfold Line.sample; split <;> (try split) <;> rfl

@[simp] theorem Line.sample_driving (q : Nat) (r : Level) (l : Line) : (l.sample q r).driving = l.driving := by
  unfold Line.sample; split <;> (try split) <;> rfl

@[simp] theorem Line.sample_pin (q : Nat) (r : Level) (l : Line) : (l.sample q r).pin = l.pin := by
  unfold Line.sample; split <;> (try split) <;> rfl

/-- A cycle changes of an engine nothing but its line (R50). -/
theorem State.cycle_engine (s : State) (g : Seg) : s.cycle.engine g = { s.engine g with line := (s.cycle.engine g).line } := by
  unfold State.cycle
  split
  · simp only [State.engine, Fin.getElem_fin, Vector.getElem_ofFn, State.sampled]; split <;> rfl
  · rfl

/-- The line of a fitted segment after a cycle of a running prescaler has been through its filter (R50). -/
theorem State.cycle_line (s : State) (g : Seg) (r : s.prescaler.running = true) (f : (s.segSetup g).fitted = true) :
    (s.cycle.engine g).line = (s.engine g).line.sample (quarterBit (s.segSetup g).rate) (s.raw g) := by
  simp [State.cycle, r, State.engine, State.sampled, f]

@[simp] theorem State.cycle_pending (s : State) : s.cycle.pending = s.pending := by unfold State.cycle; split <;> rfl
@[simp] theorem State.cycle_runState (s : State) : s.cycle.runState = s.runState := by unfold State.cycle; split <;> rfl
@[simp] theorem State.cycle_setup (s : State) : s.cycle.setup = s.setup := by unfold State.cycle; split <;> rfl
@[simp] theorem State.cycle_entries (s : State) : s.cycle.entries = s.entries := by unfold State.cycle; split <;> rfl
@[simp] theorem State.cycle_maps (s : State) : s.cycle.maps = s.maps := by unfold State.cycle; split <;> rfl
@[simp] theorem State.cycle_seeding (s : State) : s.cycle.seeding = s.seeding := by unfold State.cycle; split <;> rfl
@[simp] theorem State.cycle_portA (s : State) : s.cycle.portA = s.portA := by unfold State.cycle; split <;> rfl
@[simp] theorem State.cycle_portB (s : State) : s.cycle.portB = s.portB := by unfold State.cycle; split <;> rfl
@[simp] theorem State.cycle_freeCount (s : State) : s.cycle.freeCount = s.freeCount := by unfold State.cycle; split <;> rfl

@[simp] theorem State.cycle_prescaler (s : State) : s.cycle.prescaler = s.prescaler.cycle := by
  unfold State.cycle
  split
  · rfl
  · rename_i h; simp [Prescaler.cycle, h]

@[simp] theorem State.cycle_attempt (s : State) (g : Seg) : (s.cycle.engine g).line.attempt = (s.engine g).line.attempt := by
  unfold State.cycle
  split
  · simp only [State.engine, Fin.getElem_fin, Vector.getElem_ofFn, State.sampled]; split <;> simp
  · rfl

@[simp] theorem State.cycle_driving (s : State) (g : Seg) : (s.cycle.engine g).line.driving = (s.engine g).line.driving := by
  unfold State.cycle
  split
  · simp only [State.engine, Fin.getElem_fin, Vector.getElem_ofFn, State.sampled]; split <;> simp
  · rfl

@[simp] theorem State.cycle_pin (s : State) (g : Seg) : (s.cycle.engine g).line.pin = (s.engine g).line.pin := by
  unfold State.cycle
  split
  · simp only [State.engine, Fin.getElem_fin, Vector.getElem_ofFn, State.sampled]; split <;> simp
  · rfl

/-- A cycle leaves the raw level as it is: only a command or the world changes what is driven. -/
@[simp] theorem State.cycle_raw (s : State) (g : Seg) : s.cycle.raw g = s.raw g := by
  have h : (s.cycle.engine g).state = (s.engine g).state := by rw [State.cycle_engine]
  simp [State.raw, State.pullsBreak, State.segSetup, h]

end Sys2Proof.Machine
end

