-- ==== Sys2Proof/Laws/Requests.lean ====
section
/-! SUPPORT. Dispatch, answer and checks of a request, said once: a head of its kind is dispatched, its answer is `answered`,
the fields of a body read back, and the common checks answer `firstFailure`. -/

namespace Sys2Proof.Machine

/-! ### Dispatch and answer -/

theorem State.head?_of_heads {s : State} {p : PortId} {i : SlotIx} {r : Request} {rest : List SlotIx}
    (hd : s.heads p i r rest) : s.head? p = some (i, r) := by
  obtain ⟨_, hw, _, hs, _⟩ := hd
  simp [State.head?, hw, hs]

/-- The head of its kind is dispatched. -/
theorem State.dispatch_of_heads {s : State} {p : PortId} {i : SlotIx} {r : Request} {rest : List SlotIx} {k : ReqKind}
    (hd : s.heads p i r rest) (hk : r.kind = k) (f : SlotIx → Request → State) : s.dispatch p k f = f i r := by
  simp [State.dispatch, State.head?_of_heads hd, hd.1, hd.2.2.2.2, hk]

/-- Answering the head of a list. -/
theorem PortState.finish_head (x : PortState) (i : SlotIx) (r : Request) (rest : List SlotIx) (ans : Answer)
    (hw : x.waiting = i :: rest) (hi : i ∉ rest) (hs : x.slots[i] = .waiting r) :
    x.finish i ans = x.answered i r rest ans.status ans.generation ans.body := by
  have hf : rest.filter (fun j => !decide (j = i)) = rest := by
    apply List.filter_eq_self.2
    intro j hj
    have : j ≠ i := fun e => hi (e ▸ hj)
    simp [this]
  unfold PortState.finish PortState.answered
  simp only [hs, Slot.request?, hw]
  simp [Request.respond, Request.reply, bne]
  simpa [BEq.beq] using hf

/-- Answering the head of port `p`'s list in a state whose port `p` is that of `s`. -/
theorem State.finish_head {p : PortId} {i : SlotIx} {r : Request} {rest : List SlotIx} (t : State) (ans : Answer)
    (hw : (t.port p).waiting = i :: rest) (hi : i ∉ rest) (hs : t.slot p i = .waiting r) :
    t.finish p i ans = t.answered p i r rest ans.status ans.generation ans.body := by
  simp only [State.finish, State.updPort_eq, State.answered]
  rw [PortState.finish_head _ i r rest ans hw hi hs]

/-- A directory-only request that leaves the lists of its port alone is served in its dispatch. -/
theorem State.serve_of_heads {s : State} {p : PortId} {i : SlotIx} {r : Request} {rest : List SlotIx} {k : ReqKind}
    (hd : s.heads p i r rest) (hk : r.kind = k) (f : State → PortId → List Byte → State × Answer) {t : State} {ans : Answer}
    (hf : f s p r.body = (t, ans)) (hw : (t.port p).waiting = (s.port p).waiting) (hs : t.slot p i = s.slot p i) :
    s.serve p k f = t.answered p i r rest ans.status ans.generation ans.body := by
  simp only [State.serve, State.dispatch_of_heads hd hk, hf]
  exact State.finish_head t ans (hw.trans hd.2.1) hd.2.2.1 (hs.trans hd.2.2.2.1)

/-- A request answered without any other change. -/
theorem State.serve_same {s : State} {p : PortId} {i : SlotIx} {r : Request} {rest : List SlotIx} {k : ReqKind}
    (hd : s.heads p i r rest) (hk : r.kind = k) (f : State → PortId → List Byte → State × Answer) {ans : Answer}
    (hf : f s p r.body = (s, ans)) : s.serve p k f = s.answered p i r rest ans.status ans.generation ans.body :=
  State.serve_of_heads hd hk f hf rfl rfl

/-! ### Fields of a body -/

@[simp] theorem handleOf_byte (h : Handle) : handleOf (byte h.val) = some h := by
  have : (byte h.val).toNat = h.val := by simp [byte]; omega
  unfold handleOf
  simp [this, h.isLt]

@[simp] theorem segOf_byte (g : Seg) : segOf (byte g.val) = some g := by
  have : (byte g.val).toNat = g.val := by simp [byte]; omega
  unfold segOf
  simp [this, g.isLt]

theorem handleOf_none (b : Byte) (n : 127 < b.toNat) : handleOf b = none := by
  unfold handleOf; simp; omega

theorem segOf_none (b : Byte) (n : 3 < b.toNat) : segOf b = none := by
  unfold segOf; simp; omega

theorem flagOf_none (b : Byte) (n : 1 < b.toNat) : flagOf b = none := by
  unfold flagOf
  have h0 : b ≠ 0 := by rintro rfl; simp at n
  have h1 : b ≠ 1 := by rintro rfl; simp at n
  rw [if_neg h0, if_neg h1]

@[simp] theorem flagOf_zero : flagOf 0 = some false := rfl

@[simp] theorem flagOf_one : flagOf 1 = some true := rfl

/-- Six bytes of an identity read back. -/
theorem identOf_identBytes (x : Ident) :
    identOf (x.extractLsb' 40 8) (x.extractLsb' 32 8) (x.extractLsb' 24 8) (x.extractLsb' 16 8) (x.extractLsb' 8 8)
      (x.extractLsb' 0 8) = x := by
  apply BitVec.eq_of_getLsbD_eq
  intro k hk
  unfold identOf
  simp only [BitVec.getLsbD_append, BitVec.getLsbD_extractLsb']
  (repeat' split) <;> (rw [decide_eq_true (by omega), Bool.true_and]; congr 1; omega)

/-! ### The common checks -/

/-- A first failure is the answer of the common checks 1 to 5. -/
theorem State.commonAll_error {s : State} {p : PortId} {b x : Byte} {st : Status} {gen : Byte} {bd : List Byte}
    (hf : s.firstFailure p b true (some x) = some (st, gen, bd)) :
    s.commonAll p b x = .error { status := st, generation := gen, body := bd } := by
  unfold State.firstFailure at hf
  unfold State.commonAll State.commonToPermit State.checkNode State.checkPermit State.checkClaim State.checkGeneration handleOf
  by_cases hb : b.toNat < 128
  · simp only [hb, dif_pos] at hf ⊢
    by_cases h1 : (s.entry ⟨b.toNat, hb⟩).state = .free
    · simp_all [Entry.isFree, State.refuse, Answer.bare, bind, Except.bind]
    · by_cases h2 : s.permits p (s.entry ⟨b.toNat, hb⟩).segment = true
      · by_cases h3 : (s.entry ⟨b.toNat, hb⟩).claim = some p.other
        · simp_all [Entry.isFree, bind, Except.bind, pure, Except.pure]
        · by_cases h4 : x = 0 ∨ x = (s.entry ⟨b.toNat, hb⟩).generation
          · simp_all
          · simp_all [Entry.isFree, State.refuse, Answer.bare, bind, Except.bind, pure, Except.pure]
      · simp_all [Entry.isFree, State.refuse, Answer.bare, bind, Except.bind]
  · simp only [hb, dif_neg, not_false_eq_true, Option.some.injEq, Prod.mk.injEq] at hf ⊢
    simp_all [Answer.bare, bind, Except.bind]

/-- Without a failure the common checks 1 to 5 pass. -/
theorem State.commonAll_ok {s : State} {p : PortId} {h : Handle} {x : Byte}
    (hf : s.firstFailure p (byte h.val) true (some x) = none) : s.commonAll p (byte h.val) x = .ok h := by
  have hn : (byte h.val).toNat = h.val := by simp [byte]; omega
  have hh : handleOf (byte h.val) = some h := handleOf_byte h
  have hb : (byte h.val).toNat < 128 := by omega
  unfold State.firstFailure at hf
  have he : (⟨(byte h.val).toNat, hb⟩ : Handle) = h := Fin.ext hn
  simp only [hb, dif_pos, he] at hf
  unfold State.commonAll State.commonToPermit State.checkNode State.checkPermit State.checkClaim State.checkGeneration
  by_cases h1 : (s.entry h).state = .free <;> by_cases h2 : s.permits p (s.entry h).segment = true <;>
    by_cases h3 : (s.entry h).claim = some p.other <;> by_cases h4 : x = 0 ∨ x = (s.entry h).generation <;>
      simp_all [Entry.isFree, bind, Except.bind, pure, Except.pure]

/-- The common checks 1, 2, 3 and 5. -/
theorem State.commonUnclaimed_error {s : State} {p : PortId} {b x : Byte} {st : Status} {gen : Byte} {bd : List Byte}
    (hf : s.firstFailure p b false (some x) = some (st, gen, bd)) :
    s.commonUnclaimed p b x = .error { status := st, generation := gen, body := bd } := by
  unfold State.firstFailure at hf
  unfold State.commonUnclaimed State.commonToPermit State.checkNode State.checkPermit State.checkGeneration handleOf
  by_cases hb : b.toNat < 128
  · simp only [hb, dif_pos] at hf ⊢
    by_cases h1 : (s.entry ⟨b.toNat, hb⟩).state = .free
    · simp_all [Entry.isFree, State.refuse, Answer.bare, bind, Except.bind]
    · by_cases h2 : s.permits p (s.entry ⟨b.toNat, hb⟩).segment = true
      · by_cases h4 : x = 0 ∨ x = (s.entry ⟨b.toNat, hb⟩).generation
        · simp_all
        · simp_all [Entry.isFree, State.refuse, Answer.bare, bind, Except.bind, pure, Except.pure]
      · simp_all [Entry.isFree, State.refuse, Answer.bare, bind, Except.bind]
  · simp only [hb, dif_neg, not_false_eq_true, Option.some.injEq, Prod.mk.injEq] at hf ⊢
    simp_all [Answer.bare, bind, Except.bind]

theorem State.commonUnclaimed_ok {s : State} {p : PortId} {h : Handle} {x : Byte}
    (hf : s.firstFailure p (byte h.val) false (some x) = none) : s.commonUnclaimed p (byte h.val) x = .ok h := by
  have hn : (byte h.val).toNat = h.val := by simp [byte]; omega
  have hh : handleOf (byte h.val) = some h := handleOf_byte h
  have hb : (byte h.val).toNat < 128 := by omega
  unfold State.firstFailure at hf
  have he : (⟨(byte h.val).toNat, hb⟩ : Handle) = h := Fin.ext hn
  simp only [hb, dif_pos, he] at hf
  unfold State.commonUnclaimed State.commonToPermit State.checkNode State.checkPermit State.checkGeneration
  by_cases h1 : (s.entry h).state = .free <;> by_cases h2 : s.permits p (s.entry h).segment = true <;>
    by_cases h4 : x = 0 ∨ x = (s.entry h).generation <;>
      simp_all [Entry.isFree, bind, Except.bind, pure, Except.pure]

end Sys2Proof.Machine
end

