-- ==== Sys2Proof/Laws/Work.lean ====
section
/-! SUPPORT. Line activities and queues, said once: beginning and ending an activity, the end of an attempt, and what answering,
passes, queues and the entry changes of several activities leave as it was. -/

namespace Sys2Proof.Machine

/-! ### Answering leaves everything but its port -/

@[simp] theorem State.finish_entries (s : State) (p : PortId) (i : SlotIx) (a : Answer) :
    (s.finish p i a).entries = s.entries := by simp [State.finish]

@[simp] theorem State.finish_maps (s : State) (p : PortId) (i : SlotIx) (a : Answer) :
    (s.finish p i a).maps = s.maps := by simp [State.finish]

@[simp] theorem State.finish_engines (s : State) (p : PortId) (i : SlotIx) (a : Answer) :
    (s.finish p i a).engines = s.engines := by simp [State.finish]

@[simp] theorem State.finish_pending (s : State) (p : PortId) (i : SlotIx) (a : Answer) :
    (s.finish p i a).pending = s.pending := by simp [State.finish]

@[simp] theorem State.finish_runState (s : State) (p : PortId) (i : SlotIx) (a : Answer) :
    (s.finish p i a).runState = s.runState := by simp [State.finish]

@[simp] theorem State.finish_seeding (s : State) (p : PortId) (i : SlotIx) (a : Answer) :
    (s.finish p i a).seeding = s.seeding := by simp [State.finish]

@[simp] theorem State.finish_setup (s : State) (p : PortId) (i : SlotIx) (a : Answer) :
    (s.finish p i a).setup = s.setup := by simp [State.finish]

@[simp] theorem State.finish_entry (s : State) (p : PortId) (i : SlotIx) (a : Answer) (h : Handle) :
    (s.finish p i a).entry h = s.entry h := by simp [State.entry]

@[simp] theorem State.finish_engine (s : State) (p : PortId) (i : SlotIx) (a : Answer) (g : Seg) :
    (s.finish p i a).engine g = s.engine g := by simp [State.engine]

@[simp] theorem State.finish_mapSlot (s : State) (p : PortId) (i : SlotIx) (a : Answer) (g : Seg) (b : Byte) :
    (s.finish p i a).mapSlot g b = s.mapSlot g b := by simp [State.mapSlot]

@[simp] theorem State.finish_port_other (s : State) (p : PortId) (i : SlotIx) (a : Answer) :
    (s.finish p i a).port p.other = s.port p.other := by simp [State.finish]

/-- Answering a request that a slot holds makes that slot COMPLETED. -/
theorem State.finish_slot (s : State) (p : PortId) (i : SlotIx) (a : Answer) (r : Request)
    (hr : (s.slot p i).request? = some r) : (s.finish p i a).slot p i = .completed r (r.respond a) := by
  have hr' : ((s.port p).slots[i]).request? = some r := hr
  simp only [State.finish, State.updPort_eq, State.slot, State.setPort_port_same, PortState.finish, hr']
  simp

/-- Answering one request leaves every other slot. -/
theorem State.finish_slot_ne (s : State) (p q : PortId) (i j : SlotIx) (a : Answer) (n : (q, j) ≠ (p, i)) :
    (s.finish p i a).slot q j = s.slot q j := by
  by_cases hq : q = p
  · subst hq
    have hj : i.val ≠ j.val := fun e => n (by simp [Fin.ext e.symm])
    simp only [State.finish, State.updPort_eq, State.slot, State.setPort_port_same]
    cases hr : ((s.port q).slots[i]).request? <;> simp only [PortState.finish, hr]
    simp [hj]
  · simp only [State.finish, State.updPort_eq, State.slot, State.setPort_port, hq, if_false]

@[simp] theorem State.finishOwner_pending (s : State) (o : Option Owner) (a : Answer) :
    (s.finishOwner o a).pending = s.pending := by unfold State.finishOwner; split <;> simp

@[simp] theorem State.finishOwner_entries (s : State) (o : Option Owner) (a : Answer) :
    (s.finishOwner o a).entries = s.entries := by unfold State.finishOwner; split <;> simp

@[simp] theorem State.finishOwner_maps (s : State) (o : Option Owner) (a : Answer) :
    (s.finishOwner o a).maps = s.maps := by unfold State.finishOwner; split <;> simp

@[simp] theorem State.finishOwner_engines (s : State) (o : Option Owner) (a : Answer) :
    (s.finishOwner o a).engines = s.engines := by unfold State.finishOwner; split <;> simp

@[simp] theorem State.finishOwner_runState (s : State) (o : Option Owner) (a : Answer) :
    (s.finishOwner o a).runState = s.runState := by unfold State.finishOwner; split <;> simp

@[simp] theorem State.answerAll_pending (s : State) (a : Answer) (l : List (PortId × SlotIx)) :
    (s.answerAll a l).pending = s.pending := by
  induction l generalizing s with
  | nil => rfl
  | cons x l ih => obtain ⟨p, i⟩ := x; simp [State.answerAll, ih]

@[simp] theorem State.answerAll_entries (s : State) (a : Answer) (l : List (PortId × SlotIx)) :
    (s.answerAll a l).entries = s.entries := by
  induction l generalizing s with
  | nil => rfl
  | cons x l ih => obtain ⟨p, i⟩ := x; simp [State.answerAll, ih]

@[simp] theorem State.answerAll_maps (s : State) (a : Answer) (l : List (PortId × SlotIx)) :
    (s.answerAll a l).maps = s.maps := by
  induction l generalizing s with
  | nil => rfl
  | cons x l ih => obtain ⟨p, i⟩ := x; simp [State.answerAll, ih]

@[simp] theorem State.answerAll_engines (s : State) (a : Answer) (l : List (PortId × SlotIx)) :
    (s.answerAll a l).engines = s.engines := by
  induction l generalizing s with
  | nil => rfl
  | cons x l ih => obtain ⟨p, i⟩ := x; simp [State.answerAll, ih]

@[simp] theorem State.answerAll_runState (s : State) (a : Answer) (l : List (PortId × SlotIx)) :
    (s.answerAll a l).runState = s.runState := by
  induction l generalizing s with
  | nil => rfl
  | cons x l ih => obtain ⟨p, i⟩ := x; simp [State.answerAll, ih]

/-! ### Answers in the words of the statements -/

/-- Answering the request of a slot: one that is FREE or COMPLETED holds none. -/
theorem State.finish_eq (s : State) (p : PortId) (i : SlotIx) (a : Answer) :
    s.finish p i a = s.repliedAt p i a.status a.generation a.body := by
  have hs : (s.port p).slots[i] = s.slot p i := rfl
  unfold State.repliedAt
  simp only [State.finish, State.updPort_eq, PortState.finish, hs]
  cases s.slot p i <;> simp [Slot.request?, State.replied, Request.respond, Request.reply]

/-- Answering the request that an activity carries, orphaned or not. -/
theorem State.finishOwner_eq (s : State) (o : Option Owner) (a : Answer) :
    s.finishOwner o a = s.told o a.status a.generation a.body := by
  rcases o with _ | ⟨p, _ | i⟩
  · rfl
  · rfl
  · exact State.finish_eq s p i a

theorem State.answerAll_eq (s : State) (st : Status) (body : List Byte) (l : List (PortId × SlotIx)) :
    s.answerAll { status := st, generation := 0, body := body } l = s.repliedEach st body l := by
  induction l generalizing s with
  | nil => rfl
  | cons x l ih => obtain ⟨p, i⟩ := x; simp only [State.answerAll, State.repliedEach, State.finish_eq, ih]

/-! ### Passes -/

/-- The end of a pass, whatever the reason. -/
theorem State.endPass_eq (s : State) (g : Seg) (r : EndReason) : s.endPass g r = s.passOver g r.status r.code := by
  simp only [State.endPass, State.passOver, State.answerAll_eq, State.updPass_eq, discoverBody]
  split <;> rfl

theorem State.endPass_inactive (s : State) (g : Seg) (r : EndReason) (n : (s.engine g).pass.active = false) :
    s.endPass g r = s := by simp [State.endPass, n]

@[simp] theorem State.endPass_pending (s : State) (g : Seg) (r : EndReason) : (s.endPass g r).pending = s.pending := by
  unfold State.endPass; dsimp only; split <;> simp [State.updPass_eq]

@[simp] theorem State.endPass_entries (s : State) (g : Seg) (r : EndReason) : (s.endPass g r).entries = s.entries := by
  unfold State.endPass; dsimp only; split <;> simp [State.updPass_eq]

@[simp] theorem State.endPass_maps (s : State) (g : Seg) (r : EndReason) : (s.endPass g r).maps = s.maps := by
  unfold State.endPass; dsimp only; split <;> simp [State.updPass_eq]

@[simp] theorem State.endPass_runState (s : State) (g : Seg) (r : EndReason) : (s.endPass g r).runState = s.runState := by
  unfold State.endPass; dsimp only; split <;> simp [State.updPass_eq]

/-- The end of a pass writes no engine but its own, and there only the record. -/
theorem State.endPass_engine (s : State) (g k : Seg) (r : EndReason) :
    (s.endPass g r).engine k =
      if k = g ∧ (s.engine g).pass.active = true then
        { s.engine g with pass := { (s.engine g).pass with active := false, attached := [] } }
      else s.engine k := by
  unfold State.endPass
  by_cases ha : (s.engine g).pass.active = true
  · simp only [ha, if_true]
    rw [State.engine, State.answerAll_engines, ← State.engine, State.updPass_eq, State.updEngine_engine]
    simp
  · simp [ha]

/-! ### Beginning and ending an activity -/

theorem State.begin_eq (s : State) (g : Seg) (st : EngineState) (w : Work) (o : Option Owner) :
    s.begin g st w o = s.carrying g st w o := rfl

theorem Engine.staysOn_iff (e : Engine) : e.staysOn = true ↔ e.settings.on = true ∧ e.offTaken = false := by
  simp [Engine.staysOn]

theorem Engine.afterActivity_eq (e : Engine) :
    e.afterActivity =
      { e with
        state := if e.settings.on then .idle else .off
        tookQueue := e.settings.on && e.tookQueue
        offTaken := false, activity := none, line := { e.line with attempt := none } } := by
  unfold Engine.afterActivity Engine.cleared
  cases e.settings.on <;> simp

/-- The end of an activity, on a segment that stays on and on one that is switched off during it. -/
theorem State.endActivity_eq (s : State) (g : Seg) : s.endActivity g = s.ended g := by
  simp only [State.endActivity, State.ended, State.endPass_eq, State.updEngine, Engine.afterActivity_eq, EndReason.status,
    EndReason.code]

/-- The end of a contest activity, at the limit and before it. -/
theorem State.endContest_eq (s : State) (g : Seg) : s.endContest g = s.contestEnded g := by
  simp only [State.endContest, State.contestEnded, State.endActivity_eq, State.endPass_eq, Config.passLimit, EndReason.status,
    EndReason.code]

/-- On a segment that stays on, the end of an activity leaves the engine IDLE with nothing in progress. -/
theorem State.ended_on (s : State) (g : Seg) (on : (s.engine g).staysOn = true) :
    s.ended g = s.updEngine g fun e =>
      { e with state := .idle, offTaken := false, activity := none, line := { e.line with attempt := none } } := by
  have hon := ((Engine.staysOn_iff _).1 on).1
  simp [State.ended, on, State.updEngine, hon]

/-- After a switch-off taken during it, the end of an activity ends an active pass too, whether the setting is on again or not. -/
theorem State.endActivity_off (s : State) (g : Seg) (off : (s.engine g).staysOn = false) :
    s.endActivity g = (s.updEngine g Engine.afterActivity).endPass g .off := by
  simp [State.endActivity, off]

@[simp] theorem State.endActivity_pending (s : State) (g : Seg) : (s.endActivity g).pending = s.pending := by
  unfold State.endActivity; dsimp only; split <;> simp

@[simp] theorem State.endActivity_entries (s : State) (g : Seg) : (s.endActivity g).entries = s.entries := by
  unfold State.endActivity; dsimp only; split <;> simp

@[simp] theorem State.endActivity_maps (s : State) (g : Seg) : (s.endActivity g).maps = s.maps := by
  unfold State.endActivity; dsimp only; split <;> simp

@[simp] theorem State.endActivity_runState (s : State) (g : Seg) : (s.endActivity g).runState = s.runState := by
  unfold State.endActivity; dsimp only; split <;> simp

@[simp] theorem State.endContest_pending (s : State) (g : Seg) : (s.endContest g).pending = s.pending := by
  unfold State.endContest; dsimp only; split <;> simp

@[simp] theorem State.endContest_entries (s : State) (g : Seg) : (s.endContest g).entries = s.entries := by
  unfold State.endContest; dsimp only; split <;> simp

@[simp] theorem State.endContest_maps (s : State) (g : Seg) : (s.endContest g).maps = s.maps := by
  unfold State.endContest; dsimp only; split <;> simp

/-- A contest activity that ends before the 64th contest of its pass. -/
theorem State.contestEnded_below (s : State) (g : Seg) (n : (s.engine g).pass.contests < 64) : s.contestEnded g = s.ended g := by
  simp [State.contestEnded, Nat.not_le.2 n]

/-! ### The end of an attempt -/

/-- An outcome that may be repeated, with a retry left. -/
theorem State.attemptEnds_again (s : State) (g : Seg) (o : LineOutcome) (a : Activity) (ha : (s.engine g).activity = some a)
    (ho : o.repeats = true) (hr : a.retries < s.retryLimit g a.work) :
    s.attemptEnds g o = (s.updLine g fun l => { l with attempt := none }).retry g a := by
  have hl : ∀ w, (s.updLine g fun l => { l with attempt := none }).retryLimit g w = s.retryLimit g w := by
    intro w; unfold State.retryLimit; split <;> simp [State.updLine_eq]
  have hs : o ≠ .stuck := by rintro rfl; simp [LineOutcome.repeats] at ho
  simp only [State.attemptEnds]
  rw [show ((s.updLine g fun l => { l with attempt := none }).engine g).activity = some a by simp [State.updLine_eq, ha]]
  simp [hs, ho, hl, hr]

/-- An outcome that is not repeated, or has no retry left, is final. -/
theorem State.attemptEnds_final (s : State) (g : Seg) (o : LineOutcome) (a : Activity) (ha : (s.engine g).activity = some a)
    (hs : o ≠ .stuck) (hr : o.repeats = false ∨ s.retryLimit g a.work ≤ a.retries) :
    s.attemptEnds g o = (s.updLine g fun l => { l with attempt := none }).finalOutcome g a o := by
  have hl : ∀ w, (s.updLine g fun l => { l with attempt := none }).retryLimit g w = s.retryLimit g w := by
    intro w; unfold State.retryLimit; split <;> simp [State.updLine_eq]
  have hn : ¬ (o.repeats = true ∧ a.retries < s.retryLimit g a.work) := by
    rintro ⟨h1, h2⟩
    rcases hr with h | h
    · simp [h] at h1
    · omega
  simp only [State.attemptEnds]
  rw [show ((s.updLine g fun l => { l with attempt := none }).engine g).activity = some a by simp [State.updLine_eq, ha]]
  simp only [hs, if_false, hl, hn]

/-! ### Entry changes of several activities -/

@[simp] theorem State.raise_pending (s : State) (n : Notice) : (s.raise n).pending = s.pending := by simp [State.raise_eq]

@[simp] theorem State.raise_entry (s : State) (n : Notice) (h : Handle) : (s.raise n).entry h = s.entry h := by
  simp [State.raise_eq]

@[simp] theorem State.raise_engine (s : State) (n : Notice) (g : Seg) : (s.raise n).engine g = s.engine g := by
  simp [State.raise_eq]

@[simp] theorem State.raise_mapSlot (s : State) (n : Notice) (g : Seg) (a : Byte) :
    (s.raise n).mapSlot g a = s.mapSlot g a := by simp [State.raise_eq]

@[simp] theorem State.raise_slot (s : State) (n : Notice) (p : PortId) (i : SlotIx) :
    (s.raise n).slot p i = s.slot p i := by simp [State.raise_eq]

@[simp] theorem State.appendResolution_pending (s : State) (g : Seg) (h : Handle) :
    (s.appendResolution g h).pending = s.pending := by simp [State.appendResolution]

@[simp] theorem State.dropResolution_pending (s : State) (g : Seg) (h : Handle) :
    (s.dropResolution g h).pending = s.pending := by simp [State.dropResolution]

@[simp] theorem State.makeAbsent_pending (s : State) (h : Handle) (n : Nat) : (s.makeAbsent h n).pending = s.pending := by
  simp [State.makeAbsent]

@[simp] theorem State.restore_pending (s : State) (h : Handle) (p : Prior) (n : Nat) :
    (s.restore h p n).pending = s.pending := by
  unfold State.restore; cases p <;> dsimp only <;> (try split) <;> simp

@[simp] theorem State.returnEntry_pending (s : State) (h : Handle) : (s.returnEntry h).pending = s.pending := by
  unfold State.returnEntry; split <;> simp

@[simp] theorem State.makeConflict_pending (s : State) (g : Seg) (h : Handle) :
    (s.makeConflict g h).pending = s.pending := by simp [State.makeConflict]

@[simp] theorem State.freeRetired_pending (s : State) (h : Handle) : (s.freeRetired h).pending = s.pending := by
  simp [State.freeRetired]

@[simp] theorem State.setSilence_pending (s : State) (h : Handle) (n : Nat) : (s.setSilence h n).pending = s.pending := rfl

@[simp] theorem State.countSilence_pending (s : State) (h : Handle) : (s.countSilence h).pending = s.pending := by
  unfold State.countSilence; dsimp only; split <;> simp

@[simp] theorem State.confirm_pending (s : State) (h : Handle) : (s.confirm h).pending = s.pending := by simp [State.confirm]

/-! ### Queues -/

@[simp] theorem State.returnItem_pending (s : State) (x : QueueItem) : (s.returnItem x).pending = s.pending := by
  unfold State.returnItem; split <;> (try split) <;> simp

@[simp] theorem State.returnItems_pending (s : State) (xs : List QueueItem) : (s.returnItems xs).pending = s.pending := by
  unfold State.returnItems
  induction xs generalizing s with
  | nil => rfl
  | cons x xs ih => simp [ih]

@[simp] theorem State.answerItem_pending (c : Status) (r : EndReason) (s : State) (x : QueueItem) :
    (State.answerItem c r s x).pending = s.pending := by simp [State.answerItem]

@[simp] theorem State.answerItems_pending (s : State) (c : Status) (r : EndReason) (xs : List QueueItem) :
    (s.answerItems c r xs).pending = s.pending := by
  unfold State.answerItems
  induction xs generalizing s with
  | nil => rfl
  | cons x xs ih => simp [ih]

@[simp] theorem State.finishWaiting_pending (s : State) (g : Seg) (c : Status) (p : PortId) :
    (s.finishWaiting g c p).pending = s.pending := by unfold State.finishWaiting; split <;> simp

/-- Emptying a queue writes the pending commands only where the carried request's answer does. -/
theorem State.flushQueue_pending (s : State) (g : Seg) (c : Status) (r : EndReason) (f : State → State)
    (hf : ∀ t : State, (f t).pending = t.pending) : (s.flushQueue g c r f).pending = s.pending := by
  simp [State.flushQueue, hf]

/-! ### The intake arbiter -/

/-- One waiting port alone is served. -/
theorem State.arbitrate_one (s : State) (g : Seg) (p : PortId) (i : SlotIx) (q : LineReq)
    (hp : s.waitingFor g p = some (i, q)) (ho : s.waitingFor g p.other = none) :
    s.arbitrate g = (s.tryEnter p i g q).1 := by
  unfold State.arbitrate
  by_cases hf : (s.engine g).firstServed = p
  · simp [hf, hp, ho]
  · have hf' : (s.engine g).firstServed = p.other := by
      cases hx : (s.engine g).firstServed <;> cases p <;> simp_all [PortId.other]
    simp [hf', hp, ho]

/-- With no waiting port nothing is served. -/
theorem State.arbitrate_none (s : State) (g : Seg) (ha : s.waitingFor g .a = none) (hb : s.waitingFor g .b = none) :
    s.arbitrate g = s := by
  unfold State.arbitrate
  cases (s.engine g).firstServed <;> simp [PortId.other, ha, hb]

/-- A request whose checks pass anew is admitted. -/
theorem State.tryEnter_ok (s : State) (p : PortId) (i : SlotIx) (g k : Seg) (q : LineReq) (hc : s.checkLine p q.atAdmission = .ok k) :
    s.tryEnter p i g q = (s.enterQueue p i g q, true) := by simp [State.tryEnter, hc]

/-- A request whose checks fail anew is answered with its failure. -/
theorem State.tryEnter_error (s : State) (p : PortId) (i : SlotIx) (g : Seg) (q : LineReq) (a : Answer)
    (hc : s.checkLine p q.atAdmission = .error a) : s.tryEnter p i g q = (s.finish p i a, false) := by simp [State.tryEnter, hc]

/-- The entry changes of an admission leave what a port waits for. -/
theorem State.admissionChange_waitsFor (s : State) (g : Seg) (q : LineReq) (p : PortId) :
    ((s.admissionChange g q).port p).waitsFor = (s.port p).waitsFor := by
  have hch (t : State) (h : Handle) (e : Entry) : ((t.change h e).port p).waitsFor = (t.port p).waitsFor :=
    (State.change_ports t h e p).2.2.2.1
  unfold State.admissionChange
  (repeat' split) <;> simp [hch, State.dropResolution_eq]

/-- A port that waits for nothing has no request waiting for a queue. -/
theorem State.waitingFor_none {s : State} {p : PortId} (g : Seg) (h : (s.port p).waitsFor = none) :
    s.waitingFor g p = none := by
  unfold State.waitingFor; rw [h]; cases s.head? p <;> rfl

/-- A port whose request has entered the queue waits no more. -/
theorem State.enterQueue_waitingFor (s : State) (p : PortId) (i : SlotIx) (g k : Seg) (q : LineReq) :
    (s.enterQueue p i g q).waitingFor k p = none := by
  apply State.waitingFor_none
  simp [State.enterQueue, State.admissionChange_waitsFor, PortState.dispatchHead]

/-- Where the mode serves the request being dispatched first, the arbiter acts once (R78). -/
theorem State.admitDispatched_served {s : State} {p : PortId} {g : Seg} (h : (s.arbitrate g).waitingFor g p = none) :
    s.admitDispatched p g = s.arbitrate g := by simp [State.admitDispatched, h]

/-- Where no other port waits for the queue, a dispatched request whose checks pass enters at once (R78, R171). -/
theorem State.admitDispatched_one {s : State} {p : PortId} {g k : Seg} {i : SlotIx} {q : LineReq}
    (hp : s.waitingFor g p = some (i, q)) (ho : s.waitingFor g p.other = none) (hc : s.checkLine p q.atAdmission = .ok k) :
    s.admitDispatched p g = s.enterQueue p i g q := by
  have ha : s.arbitrate g = s.enterQueue p i g q := by
    rw [State.arbitrate_one s g p i q hp ho, State.tryEnter_ok s p i g k q hc]
  rw [State.admitDispatched_served (by rw [ha]; exact State.enterQueue_waitingFor s p i g g q), ha]

/-- A full queue admits nothing at a dispatch. -/
theorem State.queueHasPlace_iff (s : State) (g : Seg) : s.queueHasPlace g = true ↔ (s.engine g).queue.length < 8 := by
  unfold State.queueHasPlace Config.queuePlaces
  exact decide_eq_true_iff

end Sys2Proof.Machine
end

