-- ==== Sys2Proof/Laws/Outcomes.lean ====
section
/-! SUPPORT. The ends of transactions, said once: the shared entry changes are the words of Safety.lean, updates of different
registers commute, and a command that concludes a transaction applies its final outcome. -/

namespace Sys2Proof.Machine

/-! ### The shared entry changes -/

/-- Answering the request that a slot holds. -/
theorem State.finish_replied (s : State) (p : PortId) (i : SlotIx) (r : Request) (a : Answer)
    (hr : (s.slot p i).request? = some r) : s.finish p i a = s.replied p i r a.status a.generation a.body := by
  have hr' : ((s.port p).slots[i]).request? = some r := hr
  simp only [State.finish, State.updPort_eq, PortState.finish, hr', State.replied, Request.respond, Request.reply]

/-- A request on the line is answered in its slot. -/
theorem State.finishOwner_some (s : State) (p : PortId) (i : SlotIx) (r : Request) (a : Answer) (hr : s.slot p i = .onLine r) :
    s.finishOwner (some { port := p, slot := some i }) a = s.replied p i r a.status a.generation a.body :=
  State.finish_replied s p i r a (by simp [hr, Slot.request?])

/-- A change of the state code is a directory event that moves the generation. -/
theorem State.change_of_state (s : State) (h : Handle) (e : Entry) (d : stateCode (s.entry h).state ≠ stateCode e.state)
    (wa : e.watchA = (s.entry h).watchA) (wb : e.watchB = (s.entry h).watchB) : s.change h e = s.moved h e :=
  State.change_moved s h e (bearingDiffers_state _ _ d) wa wb

/-- An entry that is not yet CONFLICT becomes it. -/
theorem State.makeConflict_eq (s : State) (g : Seg) (h : Handle) (n : (s.entry h).state ≠ .conflict) :
    s.makeConflict g h = s.disputed g h := by
  have d : bearingDiffers (s.entry h) { s.entry h with state := .conflict, age := 0 } = true := by
    apply bearingDiffers_state
    cases hs : (s.entry h).state <;> simp_all [stateCode]
  unfold State.makeConflict State.disputed
  rw [State.change_moved s h _ d rfl rfl, State.raise_eq]
  congr 1
  unfold State.appendResolution
  by_cases hm : h ∈ (s.engine g).resolution <;> simp [State.updEngine, hm]

/-- An entry that is not FREE is freed by its retirement. -/
theorem State.freeRetired_eq (s : State) (h : Handle) (n : (s.entry h).state ≠ .free) : s.freeRetired h = s.retired h := by
  unfold State.freeRetired State.retired
  dsimp only
  rw [State.change_moved _ _ _ (bearingDiffers_state _ _ ?_) ?_ ?_, State.raise_eq]
  · rfl
  · cases hs : (s.entry h).state <;> simp_all [stateCode, Entry.freed, freeEntry]
  · simp [Entry.freed, freeEntry]
  · simp [Entry.freed, freeEntry]

/-- An entry that becomes ABSENT from another state. -/
theorem State.makeAbsent_eq (s : State) (h : Handle) (k : Nat) (n : (s.entry h).state ≠ .absent) :
    s.makeAbsent h k = (s.moved h { s.entry h with state := .absent, age := 0, silence := k }).noticed .absent := by
  unfold State.makeAbsent
  rw [State.raise_eq]
  refine congrArg (State.noticed · .absent) (State.change_of_state s h _ ?_ rfl rfl)
  cases hs : (s.entry h).state <;> simp_all [stateCode]

/-- An entry that becomes PRESENT from another state. -/
theorem State.confirm_eq (s : State) (h : Handle) (n : (s.entry h).state ≠ .present) :
    s.confirm h = s.moved h { s.entry h with state := .present, silence := 0, age := 0 } := by
  unfold State.confirm
  refine State.change_of_state s h _ ?_ rfl rfl
  cases hs : (s.entry h).state <;> simp_all [stateCode]

theorem Entry.inHand_iff (e : Entry) :
    e.inHand ↔ (∃ pr t, e.state = .moving pr t) ∨ ∃ pr f, e.state = .retiring pr f := Iff.rfl

theorem Entry.inHand_code {e : Entry} (hh : e.inHand) (st : EntryState) (n : stateCode st ≠ 5) (n' : stateCode st ≠ 6) :
    stateCode e.state ≠ stateCode st := by
  rcases hh with ⟨pr, t, he⟩ | ⟨pr, f, he⟩ <;> rw [he] <;> simp only [stateCode] <;> intro hc
  · exact n hc.symm
  · exact n' hc.symm

/-- A MOVING or RETIRING entry goes back to its prior state, or to ABSENT at T. -/
theorem State.restore_eq (s : State) (h : Handle) (prior : Prior) (k : Nat) (hh : (s.entry h).inHand) :
    s.restore h prior k = s.backTo h prior k := by
  have hne : (s.entry h).state ≠ .absent := fun hc =>
    Entry.inHand_code hh .absent (by decide) (by decide) (by rw [hc])
  have hm (e : Entry) (n : stateCode e.state ≠ 5) (n' : stateCode e.state ≠ 6) (wa : e.watchA = (s.entry h).watchA)
      (wb : e.watchB = (s.entry h).watchB) : s.change h e = s.moved h e :=
    State.change_of_state s h e (Entry.inHand_code hh _ n n') wa wb
  have ha : s.makeAbsent h k = (s.moved h { s.entry h with state := .absent, silence := k, age := 0 }).noticed .absent :=
    State.makeAbsent_eq s h k hne
  unfold State.restore State.backTo
  cases prior <;> dsimp only
  · rw [ha]; exact ite_congr rfl (fun _ => rfl) fun _ => hm _ (by simp [priorState, stateCode]) (by simp [priorState, stateCode]) rfl rfl
  · rw [ha]; exact ite_congr rfl (fun _ => rfl) fun _ => hm _ (by simp [priorState, stateCode]) (by simp [priorState, stateCode]) rfl rfl
  · exact hm _ (by simp [stateCode]) (by simp [stateCode]) rfl rfl
  · exact hm _ (by simp [stateCode]) (by simp [stateCode]) rfl rfl

/-! ### Updates of different registers -/

theorem State.moved_updEngine (s : State) (g : Seg) (f : Engine → Engine) (h : Handle) (e : Entry) :
    (s.updEngine g f).moved h e = (s.moved h e).updEngine g f := rfl

theorem State.noticed_updEngine (s : State) (g : Seg) (f : Engine → Engine) (n : Notice) :
    (s.updEngine g f).noticed n = (s.noticed n).updEngine g f := rfl

theorem State.setEntry_updEngine (s : State) (g : Seg) (f : Engine → Engine) (h : Handle) (e : Entry) :
    (s.updEngine g f).setEntry h e = (s.setEntry h e).updEngine g f := rfl

theorem State.setMap_updEngine (s : State) (g k : Seg) (f : Engine → Engine) (a : Byte) (m : MapSlot) :
    (s.updEngine g f).setMap k a m = (s.setMap k a m).updEngine g f := by unfold State.setMap; split <;> rfl

theorem State.replied_updEngine (s : State) (g : Seg) (f : Engine → Engine) (p : PortId) (i : SlotIx) (r : Request) (st : Status)
    (gen : Byte) (body : List Byte) :
    (s.updEngine g f).replied p i r st gen body = (s.replied p i r st gen body).updEngine g f := by
  cases p <;> rfl

theorem State.repliedAt_updEngine (s : State) (g : Seg) (f : Engine → Engine) (p : PortId) (i : SlotIx) (st : Status) (gen : Byte)
    (body : List Byte) :
    (s.updEngine g f).repliedAt p i st gen body = (s.repliedAt p i st gen body).updEngine g f := by
  unfold State.repliedAt
  rw [State.updEngine_slot]
  cases s.slot p i <;> simp [State.replied_updEngine]

theorem State.told_updEngine (s : State) (g : Seg) (f : Engine → Engine) (o : Option Owner) (st : Status) (gen : Byte)
    (body : List Byte) : (s.updEngine g f).told o st gen body = (s.told o st gen body).updEngine g f := by
  rcases o with _ | ⟨p, _ | i⟩
  · rfl
  · rfl
  · exact State.repliedAt_updEngine s g f p i st gen body

theorem State.repliedEach_updEngine (s : State) (g : Seg) (f : Engine → Engine) (st : Status) (body : List Byte)
    (l : List (PortId × SlotIx)) : (s.updEngine g f).repliedEach st body l = (s.repliedEach st body l).updEngine g f := by
  induction l generalizing s with
  | nil => rfl
  | cons x l ih => obtain ⟨p, i⟩ := x; simp only [State.repliedEach, State.repliedAt_updEngine, ih]

@[simp] theorem State.repliedAt_engine (s : State) (p : PortId) (i : SlotIx) (st : Status) (gen : Byte) (body : List Byte)
    (k : Seg) : (s.repliedAt p i st gen body).engine k = s.engine k := by
  unfold State.repliedAt; split <;> first | rfl | (cases p <;> rfl)

/-- A change of the engine that leaves the pass record alone commutes with the end of the pass. -/
theorem State.passOver_updEngine (s : State) (g : Seg) (f : Engine → Engine) (st : Status) (reason : Byte)
    (h : ∀ e, (f e).pass = e.pass) (hf : ∀ (e : Engine) (c : PassRecord), f { e with pass := c } = { f e with pass := c }) :
    (s.updEngine g f).passOver g st reason = (s.passOver g st reason).updEngine g f := by
  simp only [State.passOver, State.updEngine_engine_same, h]
  split
  · rw [← State.repliedEach_updEngine, State.updEngine_updEngine, State.updEngine_updEngine]
    exact congrArg (fun k => (s.updEngine g k).repliedEach st _ _) (funext fun e => (hf e _).symm)
  · rfl

/-- The end of an activity takes its attempt off the line as well. -/
@[simp] theorem State.ended_updLine (s : State) (g : Seg) :
    (s.updLine g fun l => { l with attempt := none }).ended g = s.ended g := by
  simp only [State.updLine_eq, State.ended, State.updEngine_updEngine, State.updEngine_engine_same, Engine.staysOn]
  rfl

/-- The end of a contest activity takes its attempt off the line as well. -/
@[simp] theorem State.contestEnded_updLine (s : State) (g : Seg) :
    (s.updLine g fun l => { l with attempt := none }).contestEnded g = s.contestEnded g := by
  unfold State.contestEnded
  rw [show ((s.updLine g fun l => { l with attempt := none }).engine g).staysOn = (s.engine g).staysOn by
      simp [State.updLine_eq, Engine.staysOn],
    show ((s.updLine g fun l => { l with attempt := none }).engine g).pass = (s.engine g).pass by simp [State.updLine_eq]]
  split
  · rw [← State.ended_updLine (s.passOver g .ok 2)]
    refine congrArg (State.ended · g) ?_
    simp only [State.updLine_eq]
    exact State.passOver_updEngine s g (fun e => { e with line := { e.line with attempt := none } }) .ok 2 (fun _ => rfl)
      fun _ _ => rfl
  · exact State.ended_updLine s g

/-- The next step's attempt takes the place of the one before it. -/
@[simp] theorem State.stepTo_updLine (s : State) (g : Seg) (a : Activity) (w : Work) :
    (s.updLine g fun l => { l with attempt := none }).stepTo g a w = s.stepped g a w := by
  simp only [State.updLine_eq, State.stepTo, State.stepped, State.updEngine_updEngine, newAttempt]

/-! ### The end of a transaction -/

theorem State.retryLimit_of_lastAttempt {s : State} {g : Seg} {a : Activity} (h : s.lastAttempt g a) :
    s.retryLimit g a.work ≤ a.retries := by
  unfold State.retryLimit
  rcases h with h | ⟨hd, adr, hw⟩
  · split <;> omega
  · rw [hw]; exact Nat.zero_le _

/-- The end of an attempt whose outcome is final. -/
theorem State.attemptEnds_last {s : State} {g : Seg} {a : Activity} {o : LineOutcome} (ha : (s.engine g).activity = some a)
    (hs : o ≠ .stuck) (hr : o.repeats = false ∨ s.lastAttempt g a) :
    s.attemptEnds g o = (s.updLine g fun l => { l with attempt := none }).finalOutcome g a o :=
  State.attemptEnds_final s g o a ha hs (hr.imp id State.retryLimit_of_lastAttempt)

/-- The line's measures leave the activity and the limit alone. -/
theorem State.lastAttempt_updLine {s : State} {g : Seg} {a : Activity} (f : Line → Line) (h : s.lastAttempt g a) :
    (s.updLine g f).lastAttempt g a := by
  simpa [State.lastAttempt, State.updLine_eq] using h

theorem getLastD_append_bytes16 (l : List Byte) (x : BitVec 16) (last : Byte) (got : List Byte) (h : got ++ [last] = l ++ bytes16 x) :
    got = l ++ [x.extractLsb' 8 8] ∧ last = x.extractLsb' 0 8 := by
  have hb : l ++ bytes16 x = (l ++ [x.extractLsb' 8 8]) ++ [x.extractLsb' 0 8] := by simp [bytes16]
  rw [hb] at h
  exact ⟨List.append_inj_left' h rfl, by simpa using List.append_inj_right' h rfl⟩

theorem word16_bytes (x : BitVec 16) : word16 (x.extractLsb' 8 8) (x.extractLsb' 0 8) = x := by
  apply BitVec.eq_of_getLsbD_eq
  intro k hk
  simp only [word16, BitVec.getLsbD_append, BitVec.getLsbD_extractLsb']
  split
  · rw [decide_eq_true (by omega), Bool.true_and]; congr 1; omega
  · rw [decide_eq_true (by omega), Bool.true_and]; congr 1; omega

/-- The last character of a reply: the CRC decides between the reply's outcome and FRAMING. -/
theorem checkReply_last (f : Frame) (got : List Byte) (last adr st : Byte) (d : List Byte) (x : BitVec 16) (hd : d.length ≤ 32)
    (h : got ++ [last] = ([adr, st, byte d.length] ++ d) ++ bytes16 x) :
    checkReply f got false last =
      if crc ([adr, st, byte d.length] ++ d) = x then .completes (if st = 0 then .accept d else .refuse st) else .fails := by
  obtain ⟨hg, hl⟩ := getLastD_append_bytes16 _ _ _ _ h
  have hn : (byte d.length).toNat = d.length := by simp [byte]; omega
  subst hl
  have hg' : got = adr :: st :: byte d.length :: (d ++ [x.extractLsb' 8 8]) := by simpa using hg
  have hlast : got.getLastD 0 = x.extractLsb' 8 8 := by
    rw [hg]; exact List.getLastD_concat
  have htake : got.take (3 + (byte d.length).toNat) = [adr, st, byte d.length] ++ d := by
    rw [hg, hn, List.take_append_of_le_length (by simp; omega), List.take_of_length_le (by simp; omega)]
  unfold checkReply
  rw [hg'] at hlast htake ⊢
  simp only [Bool.false_eq_true, if_false, List.length_append, List.length_singleton, hn, if_true]
  rw [hn] at htake
  rw [htake, hlast, word16_bytes]
  simp

/-- A reply character that passes its check and is not the last goes on (R61). -/
theorem Attempt.takes_check {t : Attempt} {mark : Bool} {d : Byte} (h : t.takes mark d) :
    checkReply t.frame t.received mark d = .goesOn := by
  obtain ⟨_, _, h⟩ := h
  unfold checkReply
  split at h
  · rename_i hr; rw [hr]; simp_all
  · rename_i hr; rw [hr]; simp_all
  · rename_i st hr; rw [hr]
    obtain ⟨rfl, hd, hs⟩ := h
    by_cases h0 : st = 0 <;> simp_all
  · rename_i hr; rw [hr]
    obtain ⟨rfl, hl⟩ := h
    simp; omega

/-- A reply character that fails a check of its own (R61). -/
theorem Attempt.rejects_check {t : Attempt} {mark : Bool} {d : Byte} (h : t.rejects mark d) :
    checkReply t.frame t.received mark d = .fails := by
  obtain ⟨_, _, h⟩ := h
  unfold checkReply
  split at h
  · rename_i hr; rw [hr]; rcases h with h | h <;> simp [h]
  · rename_i hr; rw [hr]; rcases h with h | ⟨h0, h1⟩ <;> simp_all
  · rename_i st hr; rw [hr]
    rcases h with h | h | h
    · simp [h]
    · have : ¬ d.toNat ≤ 32 := by omega
      simp [this]
    · simp [h]
  · rename_i hr; rw [hr]; simp [h]

/-- The last character of a whole reply to attempt `t` (R59, R61): the CRC decides what the attempt ends with. -/
theorem State.replyChar_last {s : State} {g : Seg} {t : Attempt} {st last : Byte} {d : List Byte} {x : BitVec 16}
    (ht : (s.engine g).line.attempt = some t) (hp : t.phase = .reply) (hr : t.openRun = false) (hd : d.length ≤ 32)
    (hl : t.received ++ [last] = ([t.frame.replyAddress, st, byte d.length] ++ d) ++ bytes16 x) :
    s.replyChar g { startDominant := true, data := last, mark := false, stopRecessive := true } =
      if crc ([t.frame.replyAddress, st, byte d.length] ++ d) = x then
        s.attemptEnds g (if st = 0 then .accept d else .refuse st) else s.attemptEnds g .framing := by
  have hatt : s.attempt g = some t := ht
  have hk := checkReply_last t.frame t.received last t.frame.replyAddress st d x hd hl
  simp only [State.replyChar, hatt, hp, hr, or_true, true_and, if_true, hk]
  by_cases hx : crc ([t.frame.replyAddress, st, byte d.length] ++ d) = x
  · rw [if_pos hx, if_pos hx]
  · rw [if_neg hx, if_neg hx]

/-- Measuring the line is all that an attempt's failing FRAMING does before the attempt ends. -/
theorem State.misframes_line {s m : State} {g : Seg} {t : Attempt} {c : Instr} (h : s.misframes g t c m) :
    ∃ f : Line → Line, m = s.updLine g f := by
  have hid : s = s.updLine g id := by simp [State.updLine_eq]
  rcases h with ⟨_, _, rfl, _⟩ | ⟨rfl, _⟩ | ⟨rfl, _⟩ | ⟨_, _, rfl, _⟩
  exacts [⟨_, hid⟩, ⟨_, hid⟩, ⟨_, hid⟩, ⟨_, rfl⟩]

/-- A command by which an attempt fails FRAMING ends it so, on the measured line, whether it is the last or not. -/
theorem exec_of_misframes {s m : State} {g : Seg} {a : Activity} {t : Attempt} {c : Instr} (hat : s.attempting g a t)
    (hc : s.misframes g t c m) : exec c s = .next (m.attemptEnds g .framing) := by
  obtain ⟨ha, ht⟩ := hat
  have hatt : s.attempt g = some t := ht
  rcases hc with ⟨hp, hr, rfl, n, hn, rfl⟩ | ⟨rfl, mark, d, hj, rfl⟩ | ⟨rfl, st, d, x, hd, hx, hp, hr, last, hl, rfl⟩ |
    ⟨hp, hr, rfl, run, hn, rfl⟩
  · simp [exec, execCharacterGapTimeout, State.gapTimeout, State.inPhase, State.openRun, hatt, hp, hr, Config.characterGap, hn]
  · have hk := Attempt.rejects_check hj
    obtain ⟨hp, hr, _⟩ := hj
    simp [exec, execReplyCharacter, State.replyChar, hatt, hp, hr, hk]
  · simp only [exec, execReplyCharacter, State.replyChar_last ht hp hr hd hl, if_neg (Ne.symm hx)]
  · simp [exec, execLineReturnsRecessive, State.runEnds, State.inPhase, State.openRun, hatt, hp, hr, Config.breakTime, hn,
      Line.sawRecessive_eq]

/-- A command that ends an activity's attempt with a final outcome applies that outcome to the measured state, with the attempt
over. Every statement about a final outcome goes through this one. -/
theorem exec_of_concludes {s m : State} {g : Seg} {a : Activity} {t : Attempt} {c : Instr} {o : LineOutcome}
    (hat : s.attempting g a t) (hc : s.concludes g a t c o m) :
    exec c s = .next ((m.updLine g fun l => { l with attempt := none }).finalOutcome g a o) := by
  obtain ⟨ha, ht⟩ := hat
  have hatt : s.attempt g = some t := ht
  have act (f : Line → Line) : ((s.updLine g f).engine g).activity = some a := by simp [State.updLine_eq, ha]
  cases o with
  | accept d =>
    obtain ⟨_, hd, _, ⟨hp, hr, last, hl, rfl⟩, rfl⟩ := hc
    simp only [exec, execReplyCharacter, State.replyChar_last ht hp hr hd hl, if_true]
    rw [State.attemptEnds_last ha (by simp) (.inl rfl)]
  | refuse code =>
    obtain ⟨_, hn, d, hd, ⟨hp, hr, last, hl, rfl⟩, rfl⟩ := hc
    simp only [exec, execReplyCharacter, State.replyChar_last ht hp hr hd hl, if_true, hn, if_false]
    rw [State.attemptEnds_last ha (by simp) (.inl rfl)]
  | noReply =>
    obtain ⟨hlast, rfl, ⟨hp, n, hn, rfl⟩ | ⟨hp, hf, rfl⟩⟩ := hc
    · simp only [exec, execReplyWindowTimeout, State.replyTimeout, State.inPhase, hatt, hp, Config.window, hn]
      simp [State.attemptEnds_last ha _ (.inr hlast)]
    · simp [exec, execAcknowledgeSlot, State.acknowledge, hatt, hp, hf, State.attemptEnds_last ha _ (.inr hlast)]
  | framing =>
    obtain ⟨hlast, hm⟩ := hc
    obtain ⟨f, rfl⟩ := State.misframes_line hm
    rw [exec_of_misframes ⟨ha, ht⟩ hm]
    rw [State.attemptEnds_last (act f) (by simp) (.inr (State.lastAttempt_updLine f hlast))]
  | collision =>
    obtain ⟨hp, run, hn, rfl, rfl⟩ := hc
    have hm := State.attemptEnds_last (act fun l => l.sawDominant run) (o := .collision) (by simp) (.inl rfl)
    have hi : s.inPhase g [.replyWait, .reply] = true := by
      rcases hp with hp | hp <;> simp [State.inPhase, hatt, hp]
    simp only [exec, execCollision, State.breakSeen, hi, Config.breakTime, hn, if_true, Line.sawDominant_eq]
    exact congrArg Host.Outcome.next hm
  | contention =>
    obtain ⟨hlast, hp, hdr, run, hn, rfl, rfl⟩ := hc
    have hm := State.attemptEnds_last (act fun l => l.breakReleased run) (o := .contention) (by simp)
      (.inr (State.lastAttempt_updLine _ hlast))
    simp only [exec, execBreakRelease, State.releaseBreak, Config.ownBreakTime, hn, hdr, and_self, if_true, State.inPhase, hatt, hp,
      Line.breakReleased_eq]
    exact congrArg Host.Outcome.next hm
  | sent =>
    obtain ⟨hp, hf, he, hc, rfl, rfl⟩ := hc
    simp [exec, execCommandFrameSent, State.frameSent, hatt, hp, hf, he, hc,
      State.attemptEnds_last (o := .sent) ha (by simp) (.inl rfl)]
  | stuck => exact hc.elim

/-- Measuring the line is all that a conclusion does before its outcome applies. -/
theorem State.concludes_line {s m : State} {g : Seg} {a : Activity} {t : Attempt} {c : Instr} {o : LineOutcome}
    (hc : s.concludes g a t c o m) : ∃ f : Line → Line, m = s.updLine g f := by
  have hid : s = s.updLine g id := by simp [State.updLine_eq]
  cases o with
  | accept d => obtain ⟨_, _, _, _, rfl⟩ := hc; exact ⟨_, hid⟩
  | refuse code => obtain ⟨_, _, d, _, _, rfl⟩ := hc; exact ⟨_, hid⟩
  | noReply => obtain ⟨_, rfl, _⟩ := hc; exact ⟨_, hid⟩
  | framing => exact State.misframes_line hc.2
  | collision => obtain ⟨_, run, _, _, rfl⟩ := hc; exact ⟨_, rfl⟩
  | contention => obtain ⟨_, _, _, run, _, _, rfl⟩ := hc; exact ⟨_, rfl⟩
  | sent => obtain ⟨_, _, _, _, _, rfl⟩ := hc; exact ⟨_, hid⟩
  | stuck => exact hc.elim

/-- What the measured state keeps. -/
theorem State.updLine_keeps (s : State) (g : Seg) (f : Line → Line) :
    (∀ h, (s.updLine g f).entry h = s.entry h) ∧ (∀ p i, (s.updLine g f).slot p i = s.slot p i) ∧
      (∀ k b, (s.updLine g f).mapSlot k b = s.mapSlot k b) ∧ (∀ k, (s.updLine g f).threshold k = s.threshold k) ∧
      ((s.updLine g f).engine g).staysOn = (s.engine g).staysOn ∧ ((s.updLine g f).engine g).pass = (s.engine g).pass := by
  refine ⟨fun _ => ?_, fun _ _ => ?_, fun _ _ => ?_, fun k => ?_, ?_, ?_⟩ <;>
    simp only [State.updLine_eq, State.updEngine_entry, State.updEngine_slot, State.updEngine_mapSlot,
      State.updEngine_engine_same, Engine.staysOn]
  unfold State.threshold
  rw [State.updEngine_engine]
  split <;> simp_all

end Sys2Proof.Machine
end

