-- ==== Sys2Proof/WellFormed.lean ====
section
/-! DEFINITION. The checks of a command's operands: a command that a measured time brings about carries a time that
reaches its rule's threshold, and the end of the setup read carries the levels of a whole read. An ill-formed command names
an event that has not come about (log 2, log 5). -/

namespace Sys2Proof

/-- The operand checks, row by row. -/
def Instr.wellFormed : Instr → Bool
  | .idleGapElapsed _ run => Config.idleGap ≤ run
  | .stuck _ run => Config.stuckTime ≤ run
  | .breakRelease _ run => Config.ownBreakTime ≤ run
  | .replyWindowTimeout _ n => Config.window ≤ n
  | .characterGapTimeout _ n => Config.characterGap ≤ n
  | .collision _ run => Config.breakTime ≤ run
  | .classWindowTimeout _ n => Config.window ≤ n
  | .resetTaken w => Config.pulseIgnored ≤ w
  | .settlingComplete n => Config.settlingCycles ≤ n
  | .lineReturnsRecessive _ run => run < Config.breakTime
  | .pollTimerExpiry _ count => Config.shortestPeriod ≤ count.ticks
  | .setupReadEnd line => line == [true] || (line.head? == some false && line.length == 1 + Config.imageBits)
  | .exchangeStart _ | .exchangeEnd _ _ | .describe _ | .getNotices _ | .clearNotices _ | .setNoticeMask _ | .getChanges _
  | .restartFull _ | .restartRetain _ | .quiet _ | .wake _ | .seed _ | .seedEnd _ | .findId _ | .findAddr _ | .list _
  | .readEntry _ | .setLabel _ | .setStride _ | .claim _ | .unclaim _ | .watch _ | .unwatch _ | .setSegment _
  | .getSegment _ | .nodeRead _ | .nodeWrite _ | .broadcast _ | .discover _ | .move _ | .retire _ | .intakeAdmission _
  | .pick _ | .contention _ _ | .acknowledgeSlot _ _ | .commandFrameSent _ | .replyCharacter _ _ | .contestSlotsEnd _ _
  | .classCharacter _ _ | .drainComplete | .powerApplied | .resetReleased => true

end Sys2Proof
end

