-- ==== Sys2Proof/Tests/Slice0.lean ====
section
/-! SUPPORT. The model's own tests: the operand checks, the codes and the CRC against the spec's values, the spec's worked
examples, at most two small results for each command, and for every statement that has hypotheses a concrete state and operands
that meet them, clause by clause. -/

namespace Sys2Proof.Tests

open Sys2Proof Sys2Proof.Machine

set_option Elab.async false

/-! ### Helpers -/

/-- The state after one command. -/
def run1 (c : Instr) (s : State) : State :=
  match exec c s with
  | .next t => t
  | .fault _ | .refused _ => s

/-- Entry 5 of the test state: PRESENT at address 7 of segment 1, watched by port A, generation 40. -/
def entry5 : Entry :=
  { state := .present, generation := 40, identity := 0x00A41C3E0912, cls := 0x21, segment := 1, address := 7, label := some 100,
    stride := none, silence := 0, age := 0, claim := none, watchA := true, watchB := false }

/-- The part in RUN with the window closed, every segment on and IDLE, and an empty directory. -/
def running : State :=
  { State.reset with
    runState := .run
    prescaler := Prescaler.start
    engines := Vector.replicate 4 { resetEngine (resetSettings true .roundRobin) with state := .idle, timer := some 100 } }

/-- The test state: `running` with entry 5 filled. -/
def base : State := (running.setEntry 5 entry5).setMap 1 7 (.held 5)

/-- `base` with entry 5 given by `e`. -/
def baseWith (e : Entry) : State := base.setEntry 5 e

/-- A request with tag 0x11. -/
def req (k : ReqKind) (body : List Byte) : Request := { kind := k, tag := 0x11, body := body, woke := .run }

/-- `s` with a request heading port `p`'s WAITING list, in slot 0. -/
def headed (s : State) (p : PortId) (k : ReqKind) (body : List Byte) : State :=
  s.setPort p { s.port p with slots := (s.port p).slots.set 0 (.waiting (req k body)), waiting := [0] }

theorem headed_heads (s : State) (p : PortId) (k : ReqKind) (body : List Byte) (h1 : s.runState.isStarting = false)
    (h2 : (s.port p).waitsFor = none) : (headed s p k body).heads p 0 (req k body) [] := by
  refine ⟨by simpa [headed] using h1, by simp [headed], by simp, by simp [headed, State.slot], by simpa [headed] using h2⟩

theorem base_heads (p : PortId) (k : ReqKind) (body : List Byte) : (headed base p k body).heads p 0 (req k body) [] :=
  headed_heads base p k body rfl (by cases p <;> rfl)

/-- The response in slot 0 of port `p` to a request of `headed`. -/
def answer (k : ReqKind) (st : Status) (gen : Byte) (body : List Byte) : Option Response :=
  some { kind := k, tag := 0x11, status := st, generation := gen, body := body }

/-- `s` with engine `g` carrying an activity whose attempt is in phase `ph`. -/
def working (s : State) (g : Seg) (st : EngineState) (w : Work) (o : Option Owner) (n : Nat) (ph : AttemptPhase)
    (got : List Byte) (openRun : Bool) (read : Ident) : State :=
  s.updEngine g fun e =>
    { e with
      state := st
      activity := some { work := w, owner := o, retries := n }
      line := { e.line with
        attempt := some { frame := w.frame, phase := ph, received := got, openRun := openRun, slotsRead := read } } }

theorem working_attempting (s : State) (g : Seg) (st : EngineState) (w : Work) (o : Option Owner) (n : Nat) (ph : AttemptPhase)
    (got : List Byte) (openRun : Bool) (read : Ident) :
    (working s g st w o n ph got openRun read).attempting g { work := w, owner := o, retries := n }
      { frame := w.frame, phase := ph, received := got, openRun := openRun, slotsRead := read } := by
  simp [working, State.attempting]

/-- A frame's bytes with its CRC. -/
def whole (head : List Byte) : List Byte := head ++ bytes16 (crc head)

/-- A data character that is well formed. -/
def dataChar (mark : Bool) (d : Byte) : LineChar := { startDominant := true, data := d, mark := mark, stopRecessive := true }

/-- `s` with a request ON_LINE in slot 0 of port A. -/
def carried (s : State) (k : ReqKind) (body : List Byte) : State :=
  s.setPort .a { s.port .a with slots := (s.port .a).slots.set 0 (.onLine (req k body)) }

/-- The owner of that request. -/
def ownerA : Option Owner := some { port := .a, slot := some 0 }

/-- `s` with an exchange in progress at port A that chose no response. -/
def exchanging (s : State) : State :=
  s.setPort .a { s.port .a with exchange := some { status := 0, response := none, slot := none } }

/-- The bits of a request frame, with the bits `more` after it. -/
def frameBits (k : ReqKind) (body : List Byte) (more : List Bool) : List Bool :=
  (requestFrame k 0x11 body).flatMap byteBits ++ more

/-- `s` with one queued request of port A, DISPATCHED in slot 0, in the queue of segment 1. -/
def queued (s : State) (k : ReqKind) (body : List Byte) (q : LineReq) (h : Option Handle) : State :=
  (s.setPort .a { s.port .a with slots := (s.port .a).slots.set 0 (.dispatched (req k body)) }).updEngine 1 fun e =>
    { e with queue := [{ port := .a, slot := 0, req := q, entry := h, identity := 0x00A41C3E0912, segment := 1 }] }

/-! ### The operand checks: one ill-formed command for each check -/

theorem test_wf_idleGapElapsed : (Instr.idleGapElapsed 0 3).wellFormed = false := by decide
theorem test_wf_stuck : (Instr.stuck 0 63).wellFormed = false := by decide
theorem test_wf_breakRelease : (Instr.breakRelease 0 23).wellFormed = false := by decide
theorem test_wf_replyWindowTimeout : (Instr.replyWindowTimeout 0 39).wellFormed = false := by decide
theorem test_wf_characterGapTimeout : (Instr.characterGapTimeout 0 11).wellFormed = false := by decide
theorem test_wf_collision : (Instr.collision 0 19).wellFormed = false := by decide
theorem test_wf_classWindowTimeout : (Instr.classWindowTimeout 0 39).wellFormed = false := by decide
theorem test_wf_resetTaken : (Instr.resetTaken 15).wellFormed = false := by decide
theorem test_wf_settlingComplete : (Instr.settlingComplete 4095).wellFormed = false := by decide
theorem test_wf_lineReturnsRecessive : (Instr.lineReturnsRecessive 0 20).wellFormed = false := by decide
theorem test_wf_pollTimerExpiry : (Instr.pollTimerExpiry 0 { ticks := 9, run := 100 }).wellFormed = false := by decide
theorem test_wf_setupReadEnd :
    (Instr.setupReadEnd [false, true]).wellFormed = false ∧ (Instr.setupReadEnd [true]).wellFormed = true ∧
      (Instr.setupReadEnd (false :: List.replicate 144 true)).wellFormed = true := by decide +kernel

theorem test_wf_goodTimes :
    (Instr.idleGapElapsed 0 4).wellFormed ∧ (Instr.stuck 0 64).wellFormed ∧ (Instr.breakRelease 0 24).wellFormed ∧
      (Instr.collision 0 20).wellFormed ∧ (Instr.settlingComplete 4096).wellFormed ∧
      (Instr.lineReturnsRecessive 0 19).wellFormed := by decide

/-! ### Codes, against the spec's values -/

/-- The check value of R56. -/
theorem test_crc_checkValue : crc [0x31, 0x32, 0x33, 0x34, 0x35, 0x36, 0x37, 0x38, 0x39] = 0x29B1 := by decide +kernel

/-- The kind codes of R210 read back. -/
theorem test_kindCode_readsBack (k : ReqKind) : kindOf (kindCode k) = some k := by cases k <;> decide

/-- The status byte after CLEARING reads 0x01 (R209). -/
theorem test_status_afterClearing : (State.reset.clearing).statusByte .a = 0x01 := by decide +kernel

/-- After a NOT_NOW in STARTING it reads 0x21 (R209). -/
theorem test_status_afterNotNow :
    (State.reset.clearing.updPort .a (·.endExchange .notNow)).statusByte .a = 0x21 := by decide +kernel

/-- In RUN with the window closed, after TAKEN, with attention asserted and a FREE slot, it reads 0x35 (R209). -/
theorem test_status_afterTaken :
    ((running.raise .restarted).updPort .a (·.endExchange .taken)).statusByte .a = 0x35 := by decide +kernel

/-- A command frame's first character carries mark 1 and its bits are sent least significant first (R52). -/
theorem test_frame_firstBits :
    (Frame.bits (bareFrame .presence 7)).take 11 =
      [false, true, true, true, false, false, false, false, false, true, true] := by decide +kernel

/-! ### The accepted image of chapter 11 -/

/-- The example's 16 bytes before the checksum. -/
def imageBytes : List Byte :=
  [0x6B, 0x3D, 0x05, 0x01, 0x64, 0x02, 0, 0, 0, 0x0A, 0x3C, 0x14, 0, 0, 0, 0x45]

/-- The example as an image, with its checksum. -/
def image : Image := ⟨(whole imageBytes).toArray, by decide +kernel⟩

/-- The part in LOADING. -/
def loading : State := { State.reset.clearing with prescaler := Prescaler.start }

/-- The part that has loaded the example. -/
def loaded : State := run1 (.setupReadEnd (false :: image.toList.flatMap byteBits)) loading

theorem test_setupReadEnd_fitted :
    (loaded.fittedSet, loaded.setup.loaded, (loaded.engine 1).state, (loaded.engine 2).state, (loaded.engine 2).settings.mode) =
      (0x05, true, .off, .idle, .portAFirst) := by decide +kernel

theorem test_setupReadEnd_statusByte : (loaded.statusByte .a, loaded.statusByte .b) = (0x55, 0x55) := by decide +kernel

/-- The part drives the read command 0xC6 and releases the line for the answer bit (R193). -/
theorem test_setupDrive_command :
    (List.range 10).map (fun k => loading.setupData (k + 1)) =
      [some true, some true, some false, some false, some false, some true, some true, some false, none, none] := by decide

/-- In SETTLING the setup data line is released at every clock of the read command (R189). -/
theorem test_setupData_settling : (List.range 8).map (fun k => State.reset.setupData (k + 1)) = List.replicate 8 none := by decide

/-- The first bit of an image is the most significant of its first byte (R193). -/
theorem test_imageOfBits_firstByte :
    (imageOfBits ([false, true, true, false, true, false, true, true] ++ List.replicate 136 false))[0] = 0x6B := by
  decide +kernel

theorem test_setSegment_notPermitted :
    ((run1 (.setSegment .b) (headed loaded .b .setSegment [0, 1, 3, 1, 3, 8, 2, 0, 0])).slot .b 0).response? =
      answer .setSegment .notPermitted 0 [] := by decide +kernel

theorem test_seed_outOfPool :
    ((run1 (.seed .a) (headed loaded .a .seed (identBytes 0x00A41C3E0912 ++ [2, 5, 0x21, 0, 0, 0]))).slot .a 0).response? =
      answer .seed .outOfPool 0 [] := by decide +kernel

/-! ### Two small results for each command at most -/

theorem test_exchangeStart_fills :
    ((run1 (.exchangeStart .a) base).port .a).exchange = some { status := 0x29, response := none, slot := none } := by
  decide +kernel

theorem test_exchangeEnd_takes :
    ((run1 (.exchangeEnd .a ((requestFrame .describe 0x11 []).flatMap byteBits)) (exchanging base)).slot .a 0,
      ((run1 (.exchangeEnd .a ((requestFrame .describe 0x11 []).flatMap byteBits)) (exchanging base)).port .a).previous) =
      (.waiting (req .describe []), .taken) := by decide +kernel

theorem test_exchangeEnd_portReset :
    let t := run1 (.exchangeEnd .a (frameBits .portReset [] [])) (exchanging (headed base .a .list []))
    (t.slot .a 0, (t.entry 5).watchA, (t.port .a).previous) = (.free, false, .taken) := by decide +kernel

/-- The bytes of an exchange leave most significant bit first, and 0x00 follows them (R160, R162). -/
theorem test_exchange_bitOrder :
    Exchange.bits { status := 0x29, response := none, slot := none } 16 =
      [false, false, true, false, true, false, false, true] ++ List.replicate 8 false := by decide

/-! ### The prescaler -/

theorem test_prescaler_ticks :
    (List.map (fun n => Prescaler.ticks { running := true, chain := 0, group := n }) [19659, 19660, 39321, 58982, 78643, 98303],
      Prescaler.ticks { running := false, chain := 0, group := 19660 }) = ([false, true, true, true, true, true], false) := by
  decide

/-- The slowest tap turns after 512 cycles, the fastest after 16 (R208). -/
theorem test_prescaler_taps :
    ([511, 512].map fun n => Prescaler.tap { running := true, chain := n, group := 0 } 0,
      [15, 16, 31, 32].map fun n => Prescaler.tap { running := true, chain := n, group := 0 } 5) =
      ([false, true], [false, true, true, false]) := by decide

/-! ### Levels and filters -/

/-- A dominant pulse of 7 cycles at rate code 5 is dropped, one of 8 cycles is followed (R50, R51). -/
theorem test_filter_quarterBit :
    (Nat.iterate (Line.sample (quarterBit 5) .dominant) 7 resetLine,
      Line.sample (quarterBit 5) .recessive (Nat.iterate (Line.sample (quarterBit 5) .dominant) 7 resetLine),
      (Nat.iterate (Line.sample (quarterBit 5) .dominant) 8 resetLine).level) =
      ({ resetLine with held := 7 }, resetLine, .dominant) := by decide +kernel

theorem test_filter_quarters : [0, 1, 2, 3, 4, 5].map quarterBit = [256, 128, 64, 32, 16, 8] := by decide

/-- Any one station makes a line dominant (R49). -/
theorem test_wired : (wired [.recessive, .dominant, .recessive], wired [.recessive, .recessive], wired []) =
    (.dominant, .recessive, .recessive) := by decide

/-- On an empty queue the group of ticks comes round after 98,304 cycles (R208). -/
theorem test_step_lastCycleOfGroup :
    (match step { running with prescaler := { running := true, chain := 1023, group := 98303 } } with
      | .next t => (t.prescaler.chain, t.prescaler.group)
      | .fault _ | .refused _ => (1, 1)) = (0, 0) := by decide +kernel

theorem test_describe :
    ((run1 (.describe .b) (headed base .b .describe [])).slot .b 0).response? =
      answer .describe .ok 0 [0xD6, 0x12, 0x01, 0x80, 0x0F, 1, 1] := by decide +kernel

theorem test_findId :
    ((run1 (.findId .a) (headed base .a .findId (identBytes 0x00A41C3E0912))).slot .a 0).response? = answer .findId .ok 40 [5, 2] := by
  decide +kernel

theorem test_findAddr :
    ((run1 (.findAddr .a) (headed base .a .findAddr [1, 7])).slot .a 0).response? = answer .findAddr .ok 40 [5, 2, 0] := by decide +kernel

theorem test_list :
    ((run1 (.list .a) (headed base .a .list [0, 0xFF, 0x7E, 1, 0])).slot .a 0).response? = answer .list .ok 0 [1, 128, 5, 2, 40] := by
  decide +kernel

theorem test_list_twelve :
    ((run1 (.list .a) (headed base .a .list [120, 0xFF, 0x7F, 1, 0])).slot .a 0).response? =
      answer .list .ok 0 ([8, 128] ++ [120, 0, 1, 121, 0, 1, 122, 0, 1, 123, 0, 1, 124, 0, 1, 125, 0, 1, 126, 0, 1, 127, 0, 1]) := by
  decide +kernel

theorem test_readEntry :
    ((run1 (.readEntry .a) (headed base .a .readEntry [5])).slot .a 0).response? =
      answer .readEntry .ok 40
        [5, 2, 0x00, 0xA4, 0x1C, 0x3E, 0x09, 0x12, 0x21, 1, 7, 0x01, 0, 100, 0, 0, 0, 0, 0, 1, 0, 0, 0] := by decide +kernel

/-- The two labels of the worked example of chapter 2.7: A's lands, then B's is STALE. -/
theorem test_setLabel_staleAfterChange :
    let s := run1 (.setLabel .a) (headed base .a .setLabel [5, 40, 0, 0, 200])
    let t := run1 (.setLabel .b) (headed s .b .setLabel [5, 40, 0, 1, 44])
    ((s.slot .a 0).response?, (t.slot .b 0).response?, (t.entry 5).label, (t.entry 5).generation, (t.port .a).notices.changed[5],
      (t.port .b).notices.changed[5]) =
      (answer .setLabel .ok 41 [], answer .setLabel .stale 41 [], some 200, 41, true, false) := by decide +kernel

theorem test_setStride :
    let t := run1 (.setStride .a) (headed base .a .setStride [5, 0, 3])
    ((t.entry 5).stride, (t.entry 5).generation) = (some { value := 3, counter := 0 }, 41) := by decide +kernel

theorem test_claim :
    let t := run1 (.claim .a) (headed base .a .claim [5])
    ((t.entry 5).claim, (t.slot .a 0).response?) = (some .a, answer .claim .ok 40 [1]) := by decide +kernel

theorem test_unclaim_held :
    ((run1 (.unclaim .b) (headed (baseWith { entry5 with claim := some .a }) .b .unclaim [5])).slot .b 0).response? =
      answer .unclaim .claimed 40 [1] := by decide +kernel

theorem test_watch :
    ((run1 (.watch .b) (headed base .b .watch [5])).slot .b 0).response? = answer .watch .ok 40 [3] := by decide +kernel

theorem test_unwatch :
    ((run1 (.unwatch .a) (headed base .a .unwatch [5])).slot .a 0).response? = answer .unwatch .ok 40 [0] := by decide +kernel

theorem test_getNotices :
    ((run1 (.getNotices .a) (headed (base.raise .restarted) .a .getNotices [])).slot .a 0).response? =
      answer .getNotices .ok 0 [0x08, 0x00, 0x08, 0x01, 1, 0] := by decide +kernel

theorem test_clearNotices :
    ((run1 (.clearNotices .a) (headed (base.raise .restarted) .a .clearNotices [0x08, 0x00])).slot .a 0).response? =
      answer .clearNotices .ok 0 [0x00, 0x01, 1] := by decide +kernel

theorem test_setNoticeMask :
    ((run1 (.setNoticeMask .a) (headed base .a .setNoticeMask [0x10, 0x00])).slot .a 0).response? =
      answer .setNoticeMask .ok 0 [0x10, 0x00, 0] := by decide +kernel

theorem test_getChanges :
    let t := run1 (.getChanges .a) (headed (base.handOver 5) .a .getChanges [])
    ((t.slot .a 0).response?, (t.port .a).notices.anyChanged) = (answer .getChanges .ok 0 [5, 2, 40], false) := by decide +kernel

theorem test_seed :
    let s := { running with seeding := true }
    let t := run1 (.seed .a) (headed s .a .seed (identBytes 0x00A41C3E0912 ++ [2, 9, 0x21, 1, 0, 7]))
    ((t.slot .a 0).response?, (t.entry 0).state, (t.entry 0).label, t.mapSlot 2 9) =
      (answer .seed .ok 2 [0], .seeded, some 7, .held 0) := by decide +kernel

theorem test_seedEnd :
    let t := run1 (.seedEnd .a) (headed { running with seeding := true } .a .seedEnd [])
    (t.seeding, (t.slot .a 0).response?) = (false, answer .seedEnd .ok 0 []) := by decide +kernel

theorem test_quiet : (run1 (.quiet .a) (headed base .a .quiet [])).runState = .quieting := by decide +kernel

theorem test_drainComplete : (run1 .drainComplete { base with runState := .quieting }).runState = .quiet := by decide +kernel

theorem test_wake :
    let t := run1 (.wake .a) (headed { base with runState := .quieting } .a .wake [])
    (t.runState, (t.slot .a 0).response?) = (.run, answer .wake .ok 0 [2]) := by decide +kernel

theorem test_restartFull :
    let t := run1 (.restartFull .a) (headed base .a .restart [1])
    (t.runState, t.entry 5, t.slot .a 0) = (.starting .loading, freeEntry 1 false false, .free) := by decide +kernel

theorem test_restartRetain :
    let t := run1 (.restartRetain .a) (headed base .a .restart [2])
    ((t.entry 5).state, (t.entry 5).generation, t.mapSlot 1 7, (t.port .a).notices.changed[5]) =
      (.seeded, 41, .held 5, true) := by decide +kernel

theorem test_setSegment :
    let t := run1 (.setSegment .a) (headed base .a .setSegment [1, 0, 3, 1, 3, 8, 2, 0, 0])
    ((t.slot .a 0).response?, (t.engine 1).state) = (answer .setSegment .ok 0 [0, 3, 1, 3, 8, 2, 0, 0, 0], .off) := by decide +kernel

theorem test_getSegment :
    ((run1 (.getSegment .a) (headed base .a .getSegment [1])).slot .a 0).response? =
      answer .getSegment .ok 0 [1, 1, 0, 1, 3, 1, 3, 8, 2, 0, 0, 1, 200, 2, 1, 1, 0, 0, 0, 0, 0, 0] := by decide +kernel

theorem test_nodeRead :
    let t := run1 (.nodeRead .a) (headed base .a .nodeRead [5, 0, 4, 2])
    (((t.engine 1).queue.map QueueItem.req), t.slot .a 0) =
      ([.nodeRead 5 0 4 2], .dispatched (req .nodeRead [5, 0, 4, 2])) := by decide +kernel

theorem test_nodeWrite_absent :
    ((run1 (.nodeWrite .a) (headed (baseWith { entry5 with state := .absent }) .a .nodeWrite [5, 0, 4, 2])).slot .a 0).response? =
      answer .nodeWrite .wrongState 40 [] := by decide +kernel

theorem test_broadcast :
    (((run1 (.broadcast .a) (headed base .a .broadcast [1, 4, 2])).engine 1).queue.map QueueItem.req) =
      [.broadcast 1 4 [2]] := by decide +kernel

theorem test_discover_window :
    ((run1 (.discover .a) (headed { base with seeding := true } .a .discover [1])).slot .a 0).response? =
      answer .discover .wrongState 0 [0, 0, 0, 0, 0, 0] := by decide +kernel

theorem test_move :
    let t := run1 (.move .a) (headed base .a .move [5, 42, 40])
    ((t.entry 5).state, (t.entry 5).generation, t.mapSlot 1 42) = (.moving .present 42, 41, .reserved 5) := by decide +kernel

theorem test_retire :
    let t := run1 (.retire .a) (headed base .a .retire [5, 0, 40])
    ((t.entry 5).state, (t.entry 5).generation) = (.retiring .present false, 41) := by decide +kernel

theorem test_intakeAdmission :
    let s := headed base .b .nodeRead [5, 0, 4, 2]
    let t := run1 (.intakeAdmission 1) (s.updPort .b fun x => { x with waitsFor := some 1 })
    ((t.engine 1).queue.length, (t.engine 1).lastServed, (t.port .b).waiting) = (1, .b, []) := by decide +kernel

/-- A waiting NODE_READ whose expected generation has passed is admitted; a NODE_WRITE is answered STALE (R87, R88). -/
theorem test_intakeAdmission_generations :
    let s := (headed base .b .nodeRead [5, 39, 4, 2]).updPort .b fun x => { x with waitsFor := some 1 }
    let w := (headed base .b .nodeWrite [5, 39, 4, 2]).updPort .b fun x => { x with waitsFor := some 1 }
    (((run1 (.intakeAdmission 1) s).engine 1).queue.length, ((run1 (.intakeAdmission 1) w).slot .b 0).response?) =
      (1, answer .nodeWrite .stale 40 []) := by decide +kernel

/-- A request dispatched while the other port's waits for the same free queue enters with it (R171). -/
theorem test_nodeWrite_besideWaiting :
    let s := ((headed (headed base .a .nodeRead [5, 0, 4, 2]) .b .nodeWrite [5, 0, 4, 2]).updPort .a
      fun x => { x with waitsFor := some 1 })
    let t := run1 (.nodeWrite .b) s
    ((t.engine 1).queue.map QueueItem.port, (t.port .a).waiting, (t.port .b).waiting) = ([.a, .b], [], []) := by
  decide +kernel

theorem test_pick_queue :
    let t := run1 (.pick 1) (queued base .nodeRead [5, 0, 4, 2] (.nodeRead 5 0 4 2) (some 5))
    ((t.engine 1).state, (t.engine 1).queue, t.slot .a 0) = (.transaction, [], .onLine (req .nodeRead [5, 0, 4, 2])) := by
  decide +kernel

theorem test_pick_poll :
    let t := run1 (.pick 1) (base.updEngine 1 fun e => { e with pollDue := true })
    ((t.engine 1).cursor, (t.engine 1).activity.map Activity.work) = (6, some (.poll 5 0x00A41C3E0912 1 7)) := by decide +kernel

/-- The poll of entry 5 in the given phase. -/
def polling (e : Entry) (n : Nat) (ph : AttemptPhase) (got : List Byte) (openRun : Bool) : State :=
  working (baseWith e) 1 .transaction (.poll 5 0x00A41C3E0912 1 7) none n ph got openRun 0

theorem test_idleGapElapsed :
    ((run1 (.idleGapElapsed 1 4) (polling entry5 0 .idleWait [] false)).engine 1).line.attempt.map Attempt.phase =
      some .address := by decide +kernel

theorem test_stuck :
    let t := run1 (.stuck 1 64) (polling entry5 0 .idleWait [] false)
    ((t.engine 1).state, (t.port .b).notices.sticky) = (.fault, 0x200) := by decide +kernel

/-- In ADDRESS of a poll at address 7 the part drives start bit, data 1, 1, 1, 0 and on; it releases the acknowledge slot and
the line in REPLY_WAIT, and drives its own break (R49, R52). -/
theorem test_drives :
    let s := polling entry5 0 .address [] false
    let b := s.updLine 1 fun l => { l with attempt := none, driving := true }
    ([0, 1, 2, 3, 4, 9, 10, 11].map (s.drives 1), (polling entry5 0 .replyWait [] false).drives 1 4, b.drives 1 0, b.raw 1,
      (b.updEngine 1 fun e => { e with state := .fault }).drives 1 0) =
      ([.dominant, .recessive, .recessive, .recessive, .dominant, .recessive, .recessive, .recessive], .recessive, .dominant,
        .dominant, .recessive) := by decide +kernel

theorem test_contention :
    ((run1 (.contention 1 1) (polling entry5 0 .address [] false)).engine 1).line.driving = true := by decide +kernel

theorem test_breakRelease :
    let t := run1 (.breakRelease 1 24) (run1 (.contention 1 1) (polling entry5 0 .address [] false))
    ((t.engine 1).line.driving, (t.engine 1).line.level, (t.engine 1).activity.map Activity.retries) =
      (false, .dominant, some 1) := by decide +kernel

/-- A retain restart in BODY starts the part's break; the filtered level follows it later (R71; log 29). -/
theorem test_restartRetain_break :
    let t := run1 (.restartRetain .a) (headed (polling entry5 0 .body [] false) .a .restart [2])
    ((t.engine 1).line.driving, (t.engine 1).line.level, t.raw 1, (t.engine 1).line.attempt.isNone) =
      (true, .recessive, .dominant, true) := by decide +kernel

theorem test_acknowledgeSlot :
    ((run1 (.acknowledgeSlot 1 true) (polling entry5 0 .address [] false)).engine 1).line.attempt.map Attempt.phase =
      some .body := by decide +kernel

theorem test_commandFrameSent :
    ((run1 (.commandFrameSent 1) (polling entry5 0 .body [] false)).engine 1).line.attempt.map Attempt.phase =
      some .replyWait := by decide +kernel

/-- Polls 3 and 5 of the worked example of chapter 5: ABSENT, then retirement. -/
theorem test_replyWindowTimeout_absent :
    let t := run1 (.replyWindowTimeout 1 40) (polling { entry5 with silence := 2 } 2 .replyWait [] false)
    ((t.entry 5).state, (t.entry 5).silence, (t.entry 5).age, (t.entry 5).generation, (t.port .a).notices.sticky) =
      (.absent, 3, 0, 41, 0x10) := by decide +kernel

theorem test_replyWindowTimeout_retired :
    let t := run1 (.replyWindowTimeout 1 40) (polling { entry5 with state := .absent, silence := 4, age := 7 } 2 .replyWait [] false)
    (t.entry 5, t.mapSlot 1 7, (t.port .a).notices.sticky) = (freeEntry 41 true false, .empty, 0x8) := by decide +kernel

theorem test_characterGapTimeout :
    ((run1 (.characterGapTimeout 1 12) (polling entry5 0 .reply [7] false)).engine 1).activity.map Activity.retries = some 1 := by
  decide +kernel

/-- A whole PRESENCE reply of a SEEDED node. -/
def presenceReply : List Byte := whole ([7, 0, 7] ++ identBytes 0x00A41C3E0912 ++ [0x21])

theorem test_replyCharacter_confirms :
    let s := polling { entry5 with state := .seeded, silence := 1 } 0 .reply presenceReply.dropLast false
    let t := run1 (.replyCharacter 1 (dataChar false (presenceReply.getLastD 0))) s
    ((t.entry 5).state, (t.entry 5).silence, (t.entry 5).generation, (t.engine 1).state) = (.present, 0, 41, .idle) := by
  decide +kernel

theorem test_replyCharacter_badCrc :
    let s := polling entry5 2 .reply presenceReply.dropLast false
    ((run1 (.replyCharacter 1 (dataChar false (presenceReply.getLastD 0 + 1))) s).entry 5).silence = 1 := by decide +kernel

/-- The collision of the worked example of chapter 7: CONFLICT, on the resolution list, the notice raised. -/
theorem test_collision :
    let t := run1 (.collision 1 20) (polling entry5 0 .replyWait [] false)
    ((t.entry 5).state, (t.entry 5).generation, (t.engine 1).resolution, (t.port .b).notices.sticky) =
      (.conflict, 41, [5], 0x20) := by decide +kernel

theorem test_lineReturnsRecessive :
    ((run1 (.lineReturnsRecessive 1 19) (polling entry5 0 .reply [7] true)).engine 1).activity.map Activity.retries = some 1 := by
  decide +kernel

/-- A contest of an active pass in the given phase. -/
def contesting (ph : AttemptPhase) (read : Ident) : State :=
  (working base 1 .contest .callUnbound none 0 ph [] false read).updEngine 1 fun e =>
    { e with pass := { e.pass with active := true } }

theorem test_contestSlotsEnd :
    let t := run1 (.contestSlotsEnd 1 0xFFFFFFFFFFFF) (contesting .slots 0)
    ((t.engine 1).pass.active, (t.engine 1).state) = (false, .idle) := by decide +kernel

theorem test_classCharacter :
    let t := run1 (.classCharacter 1 (dataChar false 0x33)) (contesting .classWait 0x00310F2200C4)
    ((t.engine 1).activity.map Activity.work, t.mapSlot 1 1) =
      (some (.assign .newJoin 0x00310F2200C4 0x33 1), .joinHold) := by decide +kernel

theorem test_classWindowTimeout :
    ((run1 (.classWindowTimeout 1 40) (contesting .classWait 0x00310F2200C4)).engine 1).pass.lost = 1 := by decide +kernel

theorem test_pollTimerExpiry :
    let t := run1 (.pollTimerExpiry 1 { ticks := 100, run := 100 }) base
    ((t.engine 1).pollDue, (t.engine 1).timer) = (true, some 100) ∧
      run1 (.pollTimerExpiry 1 { ticks := 99, run := 100 }) base = base := by decide +kernel

/-- A segment switched off and on again during a poll ends its pass OFF at the poll's end (R92, R93, R137; log 33). -/
theorem test_setSegment_offAndOn :
    let pass (e : Engine) : Engine := { e with pass := { e.pass with active := true } }
    let s := (polling entry5 2 .replyWait [] false).updEngine 1 pass
    let off := run1 (.setSegment .b) (headed s .b .setSegment [1, 0, 3, 1, 3, 8, 2, 0, 0])
    let on := run1 (.setSegment .a) (headed off .a .setSegment [1, 1, 3, 1, 3, 8, 2, 0, 0])
    let t := run1 (.replyWindowTimeout 1 40) on
    ((on.engine 1).pass.active, (t.engine 1).pass.active, (t.engine 1).state, (t.engine 1).offTaken) =
      (true, false, .idle, false) := by decide +kernel

theorem test_resetTaken : (run1 (.resetTaken 64) base).runState = .starting (.settling false) := by decide +kernel

theorem test_powerApplied : (run1 .powerApplied base).runState = .starting (.settling false) := by decide +kernel

theorem test_resetReleased : (run1 .resetReleased State.reset).runState = .starting (.settling true) := by decide +kernel

theorem test_settlingComplete :
    let t := run1 (.settlingComplete 4096) (run1 .resetReleased State.reset)
    (t.runState, t.prescaler) = (.starting .loading, Prescaler.start) := by decide +kernel

/-! ### Every statement's hypotheses are met: the properties that steps keep -/

theorem base_entry (h : Handle) : base.entry h = if h = 5 then entry5 else freeEntry 1 false false := by
  simp only [base, State.setMap_entry, State.setEntry_entry]
  split
  · rfl
  · simp [running, State.reset, State.entry]

theorem base_mapSlot (g : Seg) (a : Byte) : base.mapSlot g a = if g = 1 ∧ a = 7 then .held 5 else .empty := by
  have he : (running.setEntry 5 entry5).mapSlot g a = .empty := by
    simp only [State.mapSlot, running, State.reset, State.setEntry]
    split <;> simp
  rw [base, State.setMap_mapSlot, he]
  simp [show (mapIx 7#8).isSome = true from rfl]

theorem base_engine (g : Seg) :
    base.engine g = { resetEngine (resetSettings true .roundRobin) with state := .idle, timer := some 100 } := by
  simp [base, State.engine, running]

theorem test_hyp_GenerationsNeverBecomeZero : base.generationsRun := by
  unfold State.generationsRun; decide +kernel

theorem test_hyp_FreeEntriesStayBare : base.freeEntriesBare := by
  unfold State.freeEntriesBare; decide +kernel

theorem test_hyp_EntryCountsStayInRange : base.countsInRange ∧ base.agesWhileAbsent := by
  constructor
  · intro h
    rw [base_entry]
    split
    · refine ⟨by decide, by decide, fun st hs => by simp [entry5] at hs⟩
    · refine ⟨by decide, by decide, fun st hs => by simp [freeEntry] at hs⟩
  · unfold State.agesWhileAbsent; decide +kernel

theorem test_hyp_IdentitiesStayDistinct : base.identitiesDiffer := by
  intro h k hh hk _
  simp only [base_entry] at hh hk
  split at hh
  · split at hk
    · simp_all
    · simp [freeEntry, Entry.isFree] at hk
  · simp [freeEntry, Entry.isFree] at hh

theorem test_hyp_AddressMapsStayInAgreement : base.mapsAgree ∧ base.enginesSound := by
  refine ⟨⟨?_, ?_, ?_, ?_⟩, ?_⟩
  · intro h hf
    rw [base_entry] at hf ⊢
    split at hf
    · rename_i e; simp [e]; decide
    · simp [freeEntry, Entry.isFree] at hf
  · intro h p t hs
    rw [base_entry] at hs
    split at hs
    · simp [entry5] at hs
    · simp [freeEntry] at hs
  · intro g a _
    constructor
    · intro h
      rw [base_mapSlot, base_entry]
      by_cases hg : g = 1 ∧ a = 7
      · rw [if_pos hg]
        by_cases h5 : h = 5
        · simp [hg, h5, entry5, Entry.isFree]
        · have : ¬ 5 = h := fun e => h5 e.symm
          simp [h5, this, freeEntry, Entry.isFree]
      · rw [if_neg hg]
        by_cases h5 : h = 5
        · rw [if_pos h5]
          refine ⟨⟨fun e => by simp at e, fun e => absurd ⟨e.2.1.symm, e.2.2.symm⟩ hg⟩,
            ⟨fun e => by simp at e, fun e => ?_⟩⟩
          obtain ⟨_, p, hp⟩ := e
          simp [entry5] at hp
        · simp [h5, freeEntry, Entry.isFree]
    · intro hj
      rw [base_mapSlot] at hj
      split at hj <;> simp at hj
  · intro g a hh
    simp [base_engine, resetEngine, Engine.holding] at hh
  · intro g
    simp [base_engine, resetEngine, resetLine, Engine.sound]

theorem test_hyp_SilenceStaysBelowThreshold : base.silencesBelowThreshold := by
  refine ⟨by decide +kernel, by decide +kernel, fun h => by simp [base, running, RunState.isStarting] at h, fun h => ?_⟩
  simp [base, running] at h

theorem test_hyp_QueuesAndResolutionListsStayBounded : base.queuesBounded ∧ base.resolutionsDistinct := by
  constructor <;> intro g <;> simp [base_engine, resetEngine]

theorem test_hyp_SlotsAndListsStayInAgreement : base.slotsAgree := by
  have hq : ∀ g, base.queuedSlots g = [] := fun g => by simp [State.queuedSlots, base_engine, resetEngine]
  have hc : ∀ g, (base.engine g).carriedSlots = [] := fun g => by
    simp [Engine.carriedSlots, base_engine, resetEngine, noPass]
  refine ⟨?_, ?_, ?_, ?_, ?_⟩
  · intro p
    cases p <;> simp [base, State.port, running, State.reset, resetPort, PortState.listsAgree]
  · simp [allSegments, hq]
  · simp [allSegments, hc]
  · intro g x hx; simp [hq] at hx
  · intro g x hx; simp [hc] at hx

theorem test_hyp_ChangeSetsHoldOnlyWatchedHandles : base.changeSetsWatched := by
  intro p h hc
  cases p <;> simp [base, State.port, running, State.reset, resetPort, resetNotices] at hc

theorem test_hyp_SeedingWindowStaysInRunAndQuietStaysDrained :
    base.seedingInRun ∧ base.quietDrained ∧ { base with seeding := true }.seedingInRun := by
  refine ⟨fun _ => .inl rfl, fun h => ?_, fun _ => .inl rfl⟩
  simp [base, running] at h

theorem test_hyp_stepAnswers : ∃ t, step { base with pending := [.pick 1] } = .next t := ⟨_, rfl⟩

theorem test_hyp_PrescalerDividesTheReferenceClock :
    State.reset.pending = [] ∧ State.reset.prescaler.running = false ∧ running.pending = [] ∧ running.prescaler.running = true ∧
      loading.runState = .starting .loading ∧ loading.setupClock = some false := by
  decide

/-- A part whose segments run at rate code 5, segment 1's pin dominant: a quarter bit later the filter has followed. -/
def fast : State :=
  { running with setup := { defaultSetup with segments := Vector.replicate 4 { defaultSegSetup with rate := 5 } } }.updLine 1
    fun l => { l with pin := .dominant }

theorem test_hyp_LinesAreWiredAndFollowAfterAQuarterBit :
    (fast.prescaler.running = true ∧ (fast.segSetup 1).fitted = true ∧ (fast.segSetup 1).rate = 5) ∧
      (fast.raw 1 ≠ (fast.engine 1).line.level ∧ (fast.engine 1).line.held = 0) ∧ fast.raw 2 = (fast.engine 2).line.level ∧
      ((Nat.iterate State.cycle 7 fast).engine 1).line.level = .recessive ∧
      ((Nat.iterate State.cycle 8 fast).engine 1).line.level = .dominant := by decide +kernel

/-! ### Exchanges -/

theorem test_hyp_ExchangeStartComposesStatusByte :
    (base.port .a).exchange = none ∧ base.runState.isSettling = false ∧ (base.port .a).completed = [] ∧
      State.reset.runState.isSettling = true ∧ (State.reset.port .a).exchange = none := by decide +kernel

/-- The response that `delivering` sends. -/
def delivery (body : List Byte) : Response := { kind := .findId, tag := 1, status := .ok, generation := 3, body := body }

/-- The exchange that sends it. -/
def sending (body : List Byte) : Exchange := { status := 0x2B, response := some (delivery body), slot := some 7 }

/-- `base` with a COMPLETED response at port A that the exchange in progress is sending; the other slots are `c`. -/
def delivering (c : Slot) (body : List Byte) : State :=
  base.setPort .a { base.port .a with
    slots := (Vector.replicate 8 c).set 7 (.completed (req .findId body) (delivery body)), completed := [7],
    exchange := some (sending body) }

theorem test_hyp_ExchangeStartComposesStatusByte_oldest :
    ((delivering .free []).port .a).completed = 7 :: [] ∧
      (delivering .free []).slot .a 7 = .completed (req .findId []) (delivery []) := by decide +kernel

theorem test_hyp_ExchangeEndRemovesDeliveredResponse :
    let s := delivering .free []
    (s.port .a).exchange = some (sending []) ∧ s.slot .a 7 = .completed (req .findId []) (delivery []) ∧
      8 * (8 + (delivery []).body.length) ≤ (List.replicate 64 false).length ∧ s.runState.isSettling = false ∧
      (List.replicate 63 false).length < 8 * (8 + (delivery []).body.length) ∧
      (∃ more, List.replicate 64 false = byteBits 0 ++ more) ∧ (∃ more, List.replicate 63 false = byteBits 0 ++ more) ∧
      { s with runState := .starting (.settling false) }.runState.isSettling = true ∧
      ({ s with runState := .starting (.settling false) }.port .a).exchange = some (sending []) :=
  ⟨by decide +kernel, by decide +kernel, by decide, by decide +kernel, by decide, ⟨List.replicate 56 false, rfl⟩,
    ⟨List.replicate 55 false, rfl⟩, rfl, by decide +kernel⟩

theorem test_exchangeEnd_settling :
    let s := { delivering .free [] with runState := .starting (.settling false) }
    (run1 (.exchangeEnd .a (List.replicate 64 false)) s).slot .a 7 = .completed (req .findId []) (delivery []) := by decide +kernel

theorem test_hyp_RefusedFramesChangeOnlyPreviousOutcome :
    ((exchanging base).port .a).exchange = some { status := 0, response := none, slot := none } ∧
      kindOf 0x0A = none ∧ (0x0A : Byte) ≠ 0 ∧ 40 < (41 : Byte).toNat ∧ ([] : List Byte).length < (0 : Byte).toNat + 2 ∧
      ((0 : Byte) ++ (0 : Byte) : BitVec 16) ≠ crc [0x01, 0x11, 0] ∧
      (List.replicate 40 (0 : Byte)).length ≤ 40 := by decide +kernel

theorem test_hyp_RefusedFramesChangeOnlyPreviousOutcome_states :
    State.reset.runState.isStarting = true ∧ { base with runState := .quieting }.runState ≠ .run ∧
      (ReqKind.describe ≠ .wake) ∧ base.runState = .run ∧ ([true] : List Bool).length < 8 ∧
      (let s := delivering (.dispatched (req .move [])) []
       (s.port .a).exchange = some (sending []) ∧ ∀ i : SlotIx, (s.delivered .a (sending []) 63).slots[i] ≠ .free) := by
  refine ⟨rfl, by decide, by decide, rfl, by decide, by decide +kernel⟩

/-- A request that comes in the exchange which delivers the response of the one slot that is not DISPATCHED finds that slot FREE
(R163, R165). -/
theorem test_hyp_TakenFrameWaitsInFreeSlot :
    let s := delivering (.dispatched (req .move [])) []
    let sent := frameBits .describe [] (List.replicate 24 false)
    (s.port .a).exchange = some (sending []) ∧ s.runState = .run ∧
      (s.delivered .a (sending []) sent.length).slots[7] = .free ∧
      (run1 (.exchangeEnd .a sent) s).slot .a 7 = .waiting (req .describe []) := by decide +kernel

theorem test_hyp_TakenFrameWaitsInFreeSlot_wake :
    let s := { delivering .free [] with runState := .quieting }
    let t := { delivering (.dispatched (req .move [])) [] with runState := .quiet }
    (s.port .a).exchange = some (sending []) ∧ (s.delivered .a (sending []) 40).slots[0] = .free ∧
      (t.port .a).exchange = some (sending []) ∧ ∀ i : SlotIx, (t.delivered .a (sending []) 40).slots[i] ≠ .free := by
  decide +kernel

/-- Entry 5 MOVING to 42, with its MOVE queued. -/
def movingQueued : State :=
  (queued (baseWith { entry5 with state := .moving .present 42 }) .move [5, 42, 40] (.move 5 42 40) (some 5)).setMap 1 42 (.reserved 5)

theorem movingQueued_holds : ∃ q ∈ (movingQueued.engine 1).queue, q.port = .a ∧ q.holds 5 :=
  ⟨{ port := .a, slot := 0, req := .move 5 42 40, entry := some 5, identity := 0x00A41C3E0912, segment := 1 },
    by decide +kernel, rfl, rfl, .inl ⟨5, 42, 40, rfl⟩⟩

theorem test_hyp_PortResetEmptiesItsPort :
    ((exchanging movingQueued).port .a).exchange = some { status := 0, response := none, slot := none } ∧
      (exchanging movingQueued).runState = .run ∧ (exchanging movingQueued).engine 1 = movingQueued.engine 1 ∧
      (movingQueued.entry 5).state = .moving .present 42 ∧
      (let t := run1 (.exchangeEnd .a (frameBits .portReset [] [])) (exchanging movingQueued)
       ((t.entry 5).state, (t.entry 5).generation, t.mapSlot 1 42) = (.present, 41, .empty)) := by decide +kernel

/-! ### Requests: each kind at the head of a list, with a body of its length -/

theorem test_hyp_headsOfEveryKind (p : PortId) (k : ReqKind) (body : List Byte) :
    (headed base p k body).heads p 0 (req k body) [] ∧ (req k body).kind = k ∧ (req k body).body = body :=
  ⟨base_heads p k body, rfl, rfl⟩

theorem test_hyp_headsOutOfRun (p : PortId) (k : ReqKind) (body : List Byte) (r : RunState) (h : r.isStarting = false) :
    (headed { base with runState := r } p k body).heads p 0 (req k body) [] :=
  headed_heads _ p k body h (by cases p <;> rfl)

theorem test_hyp_DescribeFindIdAndFindAddrAnswer_findId :
    (0x00A41C3E0912 : Ident) ≠ 0 ∧ (0x00A41C3E0912 : Ident) ≠ BitVec.allOnes 48 ∧ (base.entry 5).state ≠ .free ∧
      (base.entry 5).identity = 0x00A41C3E0912 ∧
      (∀ k : Handle, (base.entry k).state ≠ .free → (base.entry k).identity = 0x00A41C3E0912 → k = 5) ∧
      ∀ h : Handle, (base.entry h).state = .free ∨ (base.entry h).identity ≠ 1 := by decide +kernel

theorem test_hyp_DescribeFindIdAndFindAddrAnswer_findAddr :
    3 < (4 : Byte).toNat ∧ 200 < (201 : Byte).toNat ∧ (1 : Byte) = byte (1 : Seg).val ∧ (200 : Byte).toNat ≤ 200 ∧
      (200 : Byte) ≠ 0 := by decide

theorem test_hyp_ListCollectsTwelveMatches :
    128 < (129 : Byte).toNat ∧ (3 < (4 : Byte).toNat ∧ (4 : Byte) ≠ 0xFF) ∧ (0x80 : Byte).getLsbD 7 = true ∧
      1 < (2 : Byte).toNat ∧ (128 : Byte).toNat ≤ 128 ∧ (3 : Byte).toNat ≤ 3 ∧ (0x7F : Byte) ≠ 0 ∧
      (0x7F : Byte).getLsbD 7 = false ∧ (1 : Byte).toNat ≤ 1 := by decide

theorem test_hyp_ReadEntryReportsEveryField :
    127 < (128 : Byte).toNat ∧ (127 : Byte) = byte (127 : Handle).val ∧
      ((baseWith { entry5 with state := .moving .present 42 }).entry 5).state = .moving .present 42 ∧
      ((baseWith { entry5 with state := .retiring .absent true }).entry 5).state = .retiring .absent true := by decide +kernel

theorem test_hyp_UnsuitedBodyIsBadRequest :
    ReqKind.seed.command .a = some (.seed .a) ∧ ([] : List Byte).length < ReqKind.seed.bodyLengths.1 ∧
      ReqKind.broadcast.bodyLengths.2 < (List.replicate 35 (0 : Byte)).length ∧ ((3 : Byte) ≠ 1 ∧ (3 : Byte) ≠ 2) ∧
      32 < (33 : Byte).toNat ∧ 3 < (4 : Byte).toNat ∧ 200 < (201 : Byte).toNat ∧ 1 < (2 : Byte).toNat := by decide

theorem test_hyp_FirstFailedCheckAnswers :
    let s := baseWith { entry5 with claim := some .b }
    s.firstFailure .a 5 true (some 0) = some (.claimed, 40, [2]) ∧ s.firstFailure .a 128 true (some 0) = some (.badHandle, 0, []) ∧
      s.firstFailure .a 4 true (some 0) = some (.freeEntry, 1, []) ∧ s.firstFailure .a 5 false (some 39) = some (.stale, 40, []) := by decide +kernel

theorem test_hyp_LabelAndStrideChangesMoveTheGeneration :
    base.firstFailure .a (byte (5 : Handle).val) true (some 40) = none ∧ (some 100 : Option (BitVec 16)) = entry5.label ∧
      (none : Option (BitVec 16)) ≠ entry5.label ∧ 1 ≤ (15 : Byte).toNat ∧ (15 : Byte).toNat ≤ 15 ∧
      15 < (16 : Byte).toNat ∧ 1 < (2 : Byte).toNat ∧
      (none : Option Nat) = entry5.stride.map Stride.value ∧ some 15 ≠ entry5.stride.map Stride.value := by decide +kernel

theorem test_hyp_ClaimsAndWatchesAreWritten_claim :
    base.firstFailure .a (byte (5 : Handle).val) true none = none ∧
      (baseWith { entry5 with claim := some .b }).firstFailure .a 5 true none = some (.claimed, 40, [2]) ∧
      base.firstFailure .a 4 true none = some (.freeEntry, 1, []) := by decide +kernel

theorem test_hyp_ClaimsAndWatchesAreWritten_watch :
    127 < (128 : Byte).toNat ∧ (127 : Byte) = byte (127 : Handle).val ∧ (0 : Byte) = byte (0 : Handle).val := by decide

theorem test_hyp_NoticeSetsClearFlagsAndWriteMask : 31 < (32 : Byte).toNat ∧ (31 : Byte).toNat ≤ 31 := by decide

/-- The window open, with no entry filled. -/
def seedable : State := { running with seeding := true }

theorem test_hyp_SeedFillsAndSeedEndCloses_seed :
    seedable.seedFailure .a 2 200 = none ∧ base.seedFailure .a 2 9 = some (.wrongState, 0, []) ∧
      { base with seeding := true }.seedFailure .a 1 7 = some (.addressInUse, 40, [5]) ∧
      { base with seeding := true }.seedFailure .a 1 8 = none ∧
      (∀ h : Handle, (seedable.entry h).state = .free ∨ (seedable.entry h).identity ≠ 1) ∧
      (seedable.entry 0).state = .free ∧ (∀ k : Handle, k < 0 → (seedable.entry k).state ≠ .free) ∧
      (byte (2 : Seg).val = 2) ∧ 3 < (4 : Byte).toNat ∧ 200 < (201 : Byte).toNat ∧ 1 < (2 : Byte).toNat := by decide +kernel

theorem test_hyp_SeedFillsAndSeedEndCloses_seed_full :
    let s := { seedable with entries := Vector.replicate 128 entry5 }
    s.seedFailure .a 2 9 = none ∧ ∀ h : Handle, (s.entry h).state ≠ .free ∧ (s.entry h).identity ≠ 1 := by decide +kernel

theorem test_hyp_SeedFillsAndSeedEndCloses_seedEnd : seedable.seeding = true ∧ base.seeding = false := by decide

theorem test_hyp_QuietAndWakeMoveTheRunState :
    let s := { base with runState := .quieting }
    s.runState = .quieting ∧
      ¬ ((∃ (p : PortId) (i : SlotIx) (r : Request), s.slot p i = .waiting r ∨ s.slot p i = .dispatched r ∨ s.slot p i = .onLine r) ∨
        ∃ g : Seg, (s.engine g).queue ≠ [] ∨ ∃ a ∈ (s.engine g).activity, ∃ o ∈ a.owner, o.slot = none) ∧
      (base.runState = .run ∧ base.seeding = false) ∧ { base with runState := .quiet }.runState = .quiet := by
  refine ⟨rfl, ?_, by decide, rfl⟩
  rintro (⟨p, i, r, h⟩ | ⟨g, h⟩)
  · cases p <;> simp [State.slot, State.port, base, running, State.reset, resetPort] at h
  · simp [State.engine, base, running, resetEngine] at h

/-! ### Restarts -/

theorem test_hyp_ClearingEmptiesThePart :
    (run1 .resetReleased State.reset).runState = .starting (.settling true) ∧
      State.reset.runState ≠ .starting (.settling true) := by decide +kernel

theorem test_hyp_RetainRestartKeepsTheDirectory :
    let s := polling entry5 0 .body [] false
    let t := polling entry5 0 .idleWait [] false
    ((s.engine 1).line.attempt.map Attempt.phase, (t.engine 1).line.attempt.map Attempt.phase,
      (base.engine 1).line.attempt.map Attempt.phase) = (some .body, some .idleWait, none) := by decide +kernel

theorem test_hyp_SetupReadEndEntersRun :
    loading.runState = .starting .loading ∧
      (setupByte image 0 = 0x6B ∧ setupByte image 1 = 0x3D ∧
        crc (image.toList.take 16) = setupByte image 16 ++ setupByte image 17) ∧
      ([false, true] ≠ [true] ∧ ∀ bits, [false, true] = false :: bits → bits.length ≠ 144) ∧
      ∀ g : Seg, (setupByte image 2).getLsbD g.val = true →
        1 ≤ (setupByte image (3 + 3 * g.val)).toNat ∧
          (setupByte image (3 + 3 * g.val)).toNat ≤ (setupByte image (4 + 3 * g.val)).toNat ∧
          (setupByte image (4 + 3 * g.val)).toNat ≤ 200 ∧ (setupByte image (5 + 3 * g.val)).toNat % 8 ≤ 5 := by
  refine ⟨by decide +kernel, by decide +kernel, ⟨by decide, fun bits h => ?_⟩, by decide +kernel⟩
  cases h; decide

theorem test_hyp_ResetEntersSettling :
    15 < 16 ∧ 64 ≤ 64 ∧ (16 ≤ 16 ∧ 16 < 64) ∧ State.reset.runState.isSettling = true ∧ base.runState.isSettling = false := by
  decide

/-! ### Segments -/

theorem test_hyp_SetSegmentWritesTheSettings_off :
    let s := base.updEngine 1 fun e => { e with state := .off, settings := { e.settings with on := false } }
    (0 : Byte) = 0 ∧ (s.engine 1).settings.on = false ∧ (s.engine 1).state ≠ .fault ∧ s.threshold 1 ≤ (7 : Byte).toNat := by
  decide +kernel

theorem test_hyp_SetSegmentWritesTheSettings :
    base.permits .a 1 = true ∧ (base.segSetup 1).fitted = true ∧ base.threshold 1 ≤ (3 : Byte).toNat ∧
      (loaded.permits .b 0 = false) ∧ ((7 : Byte).toNat ≤ 7 ∧ (15 : Byte).toNat ≤ 15 ∧ byte (3 : Seg).val = 3) ∧
      (3 < (4 : Byte).toNat ∧ 7 < (8 : Byte).toNat ∧ 15 < (16 : Byte).toNat) := by decide +kernel

/-- A request put at the head of an empty WAITING list, in a FREE slot, keeps slots and lists in agreement. -/
theorem headed_slotsAgree (s : State) (p : PortId) (k : ReqKind) (body : List Byte) (hs : s.slotsAgree)
    (hw : (s.port p).waiting = []) (hf : s.slot p 0 = .free) : (headed s p k body).slotsAgree := by
  obtain ⟨hl, h1, h2, h3, h4⟩ := hs
  have he : ∀ g, (headed s p k body).engine g = s.engine g := fun g => by simp [headed]
  have hq : (headed s p k body).queuedSlots = s.queuedSlots := funext fun g => by simp [State.queuedSlots, he]
  have hsl : ∀ x : PortId × SlotIx, x ≠ (p, 0) → (headed s p k body).slot x.1 x.2 = s.slot x.1 x.2 := by
    rintro ⟨q, i⟩ hx
    by_cases hq : q = p
    · subst hq
      have hi : ¬ (0 = i.val) := fun e => hx (by simp [Fin.ext_iff, ← e])
      simp [headed, State.slot, hi]
    · simp [headed, State.slot, State.setPort_port, hq]
  refine ⟨fun q => ?_, by rw [hq]; exact h1, by simpa [he] using h2, fun g x hx => ?_, fun g x hx => ?_⟩
  · by_cases hq : q = p
    · subst hq
      obtain ⟨_, hcn, hi⟩ := hl q
      refine ⟨by simp [headed], by simpa [headed] using hcn, fun i => ?_⟩
      by_cases h0 : i = 0
      · subst h0
        have := (hi 0).2
        have hf' : (s.port q).slots[(0 : SlotIx)] = .free := hf
        rw [hf'] at this
        simpa [headed] using this
      · have hv : ¬ (0 = i.val) := fun e => h0 (Fin.ext e.symm)
        have := hi i
        rw [hw] at this
        simpa [headed, hv, h0] using this
    · have : (headed s p k body).port q = s.port q := by simp [headed, State.setPort_port, hq]
      rw [this]; exact hl q
  · obtain ⟨r, hr⟩ := h3 g x (by rw [hq] at hx; exact hx)
    exact ⟨r, (hsl x fun e => by simp [e, hf] at hr).trans hr⟩
  · obtain ⟨r, hr⟩ := h4 g x (by simpa [he] using hx)
    exact ⟨r, (hsl x fun e => by simp [e, hf] at hr).trans hr⟩

/-- A request of port A, DISPATCHED or ON_LINE, in slot 0 keeps the port's lists in agreement with its slots. -/
theorem busy_listsAgree (x : Slot) (hw : ∀ r, x ≠ .waiting r) (hc : ∀ q r, x ≠ .completed q r) :
    PortState.listsAgree { base.port .a with slots := (base.port .a).slots.set 0 x } := by
  have hs : ∀ i : SlotIx, (base.port .a).slots[i] = Slot.free := by decide +kernel
  have h1 : (base.port .a).waiting = [] := by decide +kernel
  have h2 : (base.port .a).completed = [] := by decide +kernel
  refine ⟨by simp [h1], by simp [h2], fun i => ?_⟩
  by_cases h0 : i = 0
  · subst h0; simp [h1, h2, hw, hc]
  · have hv : ¬ (0 = i.val) := fun e => h0 (Fin.ext e.symm)
    have := hs i
    simp_all

theorem base_listsAgree : (base.port .b).listsAgree := by
  simp [base, State.port, running, State.reset, resetPort, PortState.listsAgree]

/-- A queued request in a DISPATCHED slot keeps slots and lists in agreement, whatever the directory holds. -/
theorem queued_slotsAgree (s : State) (k : ReqKind) (body : List Byte) (q : LineReq) (h : Option Handle)
    (hp : s.port = base.port) (he : s.engine = base.engine) : (queued s k body q h).slotsAgree := by
  have hs : (queued s k body q h).engine 1 = { base.engine 1 with queue := ((queued s k body q h).engine 1).queue } := by
    simp [queued, he]
  have hq1 : (queued s k body q h).queuedSlots 1 = [(.a, 0)] := by simp [State.queuedSlots, queued]
  have hne : ∀ g, g ≠ 1 → (queued s k body q h).engine g = base.engine g := fun g hg => by
    simp [queued, State.updEngine_engine, hg, he]
  have h0 : ∀ g, (base.engine g).queue = [] := by decide +kernel
  have h1 : ∀ g, (base.engine g).carriedSlots = [] := by decide +kernel
  have hqs : ∀ g, (queued s k body q h).queuedSlots g = if g = 1 then [(.a, 0)] else [] := fun g => by
    by_cases hg : g = 1
    · subst hg; simpa using hq1
    · simp [State.queuedSlots, hne g hg, h0, hg]
  have hc : ∀ g, ((queued s k body q h).engine g).carriedSlots = [] := fun g => by
    by_cases hg : g = 1
    · subst hg; rw [hs]; exact h1 1
    · rw [hne g hg, h1]
  have hpa : (queued s k body q h).port .a =
      { base.port .a with slots := (base.port .a).slots.set 0 (.dispatched (req k body)) } := by simp [queued, hp]
  have hpb : (queued s k body q h).port .b = base.port .b := by simp [queued, State.setPort_port, hp]
  refine ⟨fun p => ?_, by simp [hqs, allSegments], by simp [hc, allSegments], fun g x hx => ?_, fun g x hx => by simp [hc] at hx⟩
  · cases p
    · rw [hpa]; exact busy_listsAgree _ (by simp) (by simp)
    · rw [hpb]; exact base_listsAgree
  · rw [hqs] at hx
    split at hx <;> simp at hx
    subst hx
    exact ⟨req k body, by simp [State.slot, hpa]⟩

theorem movingQueued_slotsAgree : movingQueued.slotsAgree :=
  queued_slotsAgree ((baseWith { entry5 with state := .moving .present 42 }).setMap 1 42 (.reserved 5)) _ _ _ _ rfl rfl

/-- `base` with a pass active on segment 1 and a DISCOVER of port A attached to it. -/
def passing : State :=
  (carried base .discover [1]).updEngine 1 fun e => { e with pass := { e.pass with active := true, attached := [(.a, 0)] } }

/-- A request ON_LINE in slot 0 of port A that engine 1 alone carries or has attached keeps slots and lists in agreement. -/
theorem carried_slotsAgree (k : ReqKind) (body : List Byte) (e : Engine → Engine) (hq : (e (base.engine 1)).queue = [])
    (hc1 : (e (base.engine 1)).carriedSlots = [(.a, 0)]) : ((carried base k body).updEngine 1 e).slotsAgree := by
  have he : ∀ g, (carried base k body).engine g = base.engine g := fun g => by simp [carried]
  have h0 : ∀ g, (base.engine g).queue = [] := by decide +kernel
  have hqs : ∀ g, ((carried base k body).updEngine 1 e).queuedSlots g = [] := fun g => by
    simp only [State.queuedSlots, State.updEngine_engine]
    split
    · rename_i hg; subst hg; rw [he, hq]; rfl
    · rw [he, h0]; rfl
  have h1 : ∀ g, (base.engine g).carriedSlots = [] := by decide +kernel
  have hc : ∀ g, (((carried base k body).updEngine 1 e).engine g).carriedSlots = if g = 1 then [(.a, 0)] else [] := fun g => by
    rw [State.updEngine_engine]
    split
    · rw [he, hc1]
    · rw [he, h1]
  have hpa : (carried base k body).port .a =
      { base.port .a with slots := (base.port .a).slots.set 0 (.onLine (req k body)) } := by simp [carried]
  have hpb : (carried base k body).port .b = base.port .b := by simp [carried, State.setPort_port]
  refine ⟨fun p => ?_, by simp [hqs, allSegments], by simp [hc, allSegments], fun g x hx => by simp [hqs] at hx, fun g x hx => ?_⟩
  · rw [State.updEngine_port]
    cases p
    · rw [hpa]; exact busy_listsAgree _ (by simp) (by simp)
    · rw [hpb]; exact base_listsAgree
  · rw [hc] at hx
    split at hx <;> simp at hx
    subst hx
    exact ⟨req k body, by rw [State.updEngine_slot]; simp [State.slot, hpa]⟩

/-- An attached DISCOVER in an ON_LINE slot keeps slots and lists in agreement, also while the engine works for no request. -/
theorem passing_slotsAgree (e : Engine → Engine) (hq : ∀ x, (e x).queue = x.queue)
    (hp : ∀ x, (e x).pass.attached = x.pass.attached)
    (ha : ∀ a ∈ (e (passing.engine 1)).activity, a.owner = none) : (passing.updEngine 1 e).slotsAgree := by
  have h0 : (passing.engine 1).queue = [] := by decide +kernel
  have h2 : (passing.engine 1).pass.attached = [(.a, 0)] := by decide +kernel
  have hb : passing.engine 1 =
      { base.engine 1 with pass := { (base.engine 1).pass with active := true, attached := [(.a, 0)] } } := by decide +kernel
  unfold passing
  rw [State.updEngine_updEngine]
  refine carried_slotsAgree _ _ _ ?_ ?_
  · rw [← hb, hq, h0]
  · rw [← hb]
    unfold Engine.carriedSlots
    rw [hp, h2]
    split
    · rename_i hact; rw [hact] at ha; simpa using ha _ rfl
    · rfl
    · rfl
    · rfl

theorem test_hyp_SwitchOffAnswersTheQueue :
    (headed movingQueued .b .setSegment [1, 0, 3, 1, 3, 8, 2, 0, 0]).slotsAgree ∧ (movingQueued.engine 1).settings.on = true ∧
      (movingQueued.engine 1).state = .idle ∧ movingQueued.permits .b 1 = true ∧
      (∃ q ∈ (movingQueued.engine 1).queue, q.holds 5) ∧
      (headed (passing.updEngine 1 id) .b .setSegment [1, 0, 3, 1, 3, 8, 2, 0, 0]).slotsAgree ∧
      ((passing.engine 1).state = .idle ∧ (passing.engine 1).pass.active = true) ∧
      ((polling entry5 0 .body [] false).engine 1).state = .transaction := by
  refine ⟨headed_slotsAgree _ _ _ _ movingQueued_slotsAgree (by decide +kernel) (by decide +kernel), by decide +kernel,
    by decide +kernel, by decide +kernel, ?_, ?_, by decide +kernel, by decide +kernel⟩
  · obtain ⟨q, hq, _, hh⟩ := movingQueued_holds; exact ⟨q, hq, hh⟩
  · exact headed_slotsAgree _ _ _ _ (passing_slotsAgree id (fun _ => rfl) (fun _ => rfl) (by decide +kernel)) (by decide +kernel)
      (by decide +kernel)

/-- What a port waits for is not among what slots and lists agree on. -/
theorem waitsFor_slotsAgree (s : State) (p : PortId) (w : Option Seg) (hs : s.slotsAgree) :
    (s.setPort p { s.port p with waitsFor := w }).slotsAgree := by
  obtain ⟨hl, h1, h2, h3, h4⟩ := hs
  have he : ∀ g, (s.setPort p { s.port p with waitsFor := w }).engine g = s.engine g := fun g => by simp
  have hq : (s.setPort p { s.port p with waitsFor := w }).queuedSlots = s.queuedSlots := funext fun g => by
    simp [State.queuedSlots, he]
  have hsl : (s.setPort p { s.port p with waitsFor := w }).slot = s.slot := by
    funext q i; cases p <;> cases q <;> rfl
  refine ⟨fun q => ?_, by rw [hq]; exact h1, by simpa [he] using h2, by rw [hq, hsl]; exact h3, by rw [hsl]; simpa [he] using h4⟩
  cases p <;> cases q <;> first | exact hl .a | exact hl .b

/-- `base` with a NODE_READ of port A that waits for the queue of segment 1. -/
def waits : State :=
  (headed base .a .nodeRead [5, 0, 4, 2]).setPort .a
    { (headed base .a .nodeRead [5, 0, 4, 2]).port .a with waitsFor := some 1 }

theorem waits_slotsAgree : waits.slotsAgree :=
  waitsFor_slotsAgree _ _ _ (headed_slotsAgree _ _ _ _ test_hyp_SlotsAndListsStayInAgreement (by decide +kernel) (by decide +kernel))

/-- A waiting request, a lowering of T beside the switch-off, and off written in FAULT. -/
theorem test_hyp_SwitchOffAnswersTheQueue_forms :
    (headed waits .b .setSegment [1, 0, 3, 1, 3, 8, 2, 0, 0]).slotsAgree ∧
      (headed waits .b .setSegment [1, 0, 3, 1, 3, 8, 2, 0, 0]).waitingFor 1 .a = some (0, .nodeRead 5 0 4 2) ∧
      (let s := baseWith { entry5 with silence := 1 }
       (1 : Byte).toNat < s.threshold 1 ∧ (s.entry 5).segment = 1 ∧ (s.entry 5).state = .present ∧
         (1 : Byte).toNat ≤ (s.entry 5).silence) ∧
      let f := base.updEngine 1 fun e => { e with state := .fault, settings := { e.settings with on := false } }
      (f.engine 1).state = .fault ∧ (f.engine 1).settings.on = false ∧
        ((run1 (.setSegment .b) (headed f .b .setSegment [1, 0, 3, 1, 3, 8, 2, 0, 0])).engine 1).state = .off := by
  refine ⟨headed_slotsAgree _ _ _ _ waits_slotsAgree (by decide +kernel) (by decide +kernel), by decide +kernel, by decide +kernel,
    by decide +kernel⟩

/-- The waiting request of the other port is answered with the switch-off (R91). -/
theorem test_setSegment_off_waiting :
    let t := run1 (.setSegment .b) (headed waits .b .setSegment [1, 0, 3, 1, 3, 8, 2, 0, 0])
    ((t.slot .a 0).response?.map Response.status, (t.port .a).waiting, (t.engine 1).state) =
      (some .segmentOff, [], .off) := by decide +kernel

/-- An engine that is OFF with its setting on, and a queued DISCOVER. -/
theorem test_hyp_SwitchOffAnswersTheQueue_corners :
    ((base.updEngine 1 fun e => { e with state := .off }).engine 1).settings.on = true ∧
      (headed (queued base .discover [1] (.discover 1) none) .b .setSegment [1, 0, 3, 1, 3, 8, 2, 0, 0]).slotsAgree :=
  ⟨by decide +kernel, headed_slotsAgree _ _ _ _ (queued_slotsAgree _ _ _ _ _ rfl rfl) (by decide +kernel) (by decide +kernel)⟩

/-- A queued DISCOVER is answered with end reason OFF and counts of 0, a queued MOVE with its entry's generation after the return,
and the SET_SEGMENT with the settings and OFF (R74, R91). -/
theorem test_setSegment_off_answers :
    let body : List Byte := [1, 0, 3, 1, 3, 8, 2, 0, 0]
    let d := run1 (.setSegment .b) (headed (queued base .discover [1] (.discover 1) none) .b .setSegment body)
    let m := run1 (.setSegment .b) (headed movingQueued .b .setSegment body)
    (d.slot .a 0).response? = answer .discover .segmentOff 0 [4, 0, 0, 0, 0, 0] ∧
      (m.slot .a 0).response? = answer .move .segmentOff 41 [] ∧
      (m.slot .b 0).response? = answer .setSegment .ok 0 [0, 3, 1, 3, 8, 2, 0, 0, 0] := by decide +kernel

/-- In QUIETING a return that tells a unit with CHANGED enabled, and a lowering of T with ABSENT enabled, wake the part; with
neither enabled it stays (R182, R207). -/
theorem test_setSegment_wakes :
    let quieting (m : BitVec 13) (s : State) : State :=
      ({ s with runState := .quieting }).updPort .a fun x => { x with notices := { x.notices with mask := m } }
    let off (m : BitVec 13) : RunState :=
      (run1 (.setSegment .b) (quieting m (headed movingQueued .b .setSegment [1, 0, 3, 1, 3, 8, 2, 0, 0]))).runState
    let lower (m : BitVec 13) : RunState :=
      (run1 (.setSegment .b) (quieting m (headed (baseWith { entry5 with silence := 2, watchA := false }) .b .setSegment
        [1, 1, 3, 1, 2, 8, 2, 0, 0]))).runState
    off 0x2 = .run ∧ off 0x10 = .quieting ∧ lower 0x10 = .run ∧ lower 0x2 = .quieting := by decide +kernel

theorem test_hyp_LoweringThresholdMakesAbsent :
    let s := baseWith { entry5 with silence := 2 }
    let f := s.updEngine 1 fun e => { e with state := .off, settings := { e.settings with on := false } }
    (2 : Byte).toNat < s.threshold 1 ∧ (s.entry 5).segment = 1 ∧ (s.entry 5).state = .present ∧
      (2 : Byte).toNat ≤ (s.entry 5).silence ∧ ¬ (3 : Byte).toNat ≤ (s.entry 5).silence ∧
      ((f.engine 1).settings.on = false ∧ (f.engine 1).state ≠ .fault ∧ (2 : Byte).toNat < f.threshold 1) := by decide +kernel

theorem test_hyp_GetSegmentReportsTheSegment :
    (base.segSetup 3).fitted = true ∧ (loaded.segSetup 3).fitted = false ∧ 3 < (4 : Byte).toNat ∧ (3 : Byte) = byte (3 : Seg).val := by
  decide +kernel

theorem test_hyp_PollTimerExpiryMarksOrRecovers :
    let s := base.updEngine 1 fun e => { e with settings := { e.settings with discovery := 2 } }
    let t := s.updEngine 1 fun e => { e with expiries := 1 }
    (s.runState.isStarting = false ∧ (s.engine 1).timer = some 100) ∧
      ((s.engine 1).state ≠ .off ∧ (s.engine 1).state ≠ .fault ∧ s.seeding = false ∧ s.runState = .run) ∧
      (s.engine 1).expiries + 1 < (s.engine 1).settings.discovery ∧
      (1 ≤ (t.engine 1).settings.discovery ∧ (t.engine 1).settings.discovery ≤ (t.engine 1).expiries + 1) ∧
      (base.engine 1).settings.discovery = 0 ∧ { s with runState := .quieting }.runState ≠ .run := by decide +kernel

theorem test_hyp_PollTimerExpiryMarksOrRecovers_fault :
    let s := base.updEngine 1 fun e => { e with state := .fault }
    s.runState.isStarting = false ∧ (s.engine 1).timer = some 100 ∧ (s.engine 1).state = .fault ∧ 64 ≤ 64 ∧ ¬ 64 ≤ 63 := by
  decide +kernel

/-! ### Line requests, arbiter, picks -/

theorem test_hyp_LineRequestEntersTheQueue :
    (∀ c ∈ [(1 : Byte), 32], 1 ≤ c.toNat ∧ c.toNat ≤ 32) ∧
      base.passes .a (req .nodeRead [5, 40, 4, 32]) (.nodeRead .a) 1 (.nodeRead 5 40 4 32) (some 5) ∧
      base.passes .a (req .nodeWrite [5, 40, 4, 1]) (.nodeWrite .a) 1 (.nodeWrite 5 40 4 [1]) (some 5) ∧
      base.passes .a (req .broadcast [1, 4, 1]) (.broadcast .a) 1 (.broadcast 1 4 [1]) none ∧
      base.passes .a (req .discover [1]) (.discover .a) 1 (.discover 1) none ∧
      base.passes .a (req .move [5, 200, 40]) (.move .a) 1 (.move 5 200 40) (some 5) ∧
      base.passes .a (req .retire [5, 1, 40]) (.retire .a) 1 (.retire 5 true 40) (some 5) := by
  refine ⟨by decide, ?_, ?_, ?_, ?_, ?_, ?_⟩
  · exact .inl ⟨5, 40, 4, 32, rfl, rfl, by decide, by decide, by decide +kernel, by decide +kernel, rfl, by decide +kernel, rfl, rfl⟩
  · exact .inr (.inl ⟨5, 40, 4, [1], rfl, rfl, by decide, by decide, by decide +kernel, by decide +kernel, rfl, by decide +kernel,
      rfl, rfl⟩)
  · exact .inr (.inr (.inl ⟨1, 4, [1], rfl, rfl, by decide, by decide, by decide +kernel, by decide +kernel, rfl, rfl, rfl, rfl⟩))
  · exact .inr (.inr (.inr (.inl ⟨1, rfl, rfl, by decide +kernel, rfl, by decide +kernel, rfl, rfl, rfl, rfl⟩)))
  · exact .inr (.inr (.inr (.inr (.inl ⟨5, 200, 40, rfl, rfl, by decide, by decide, by decide +kernel, by decide +kernel, rfl,
      by decide +kernel, rfl, rfl⟩))))
  · exact .inr (.inr (.inr (.inr (.inr ⟨5, 40, true, rfl, rfl, by decide +kernel, by decide +kernel, rfl, by decide +kernel, rfl,
      rfl⟩))))

/-- A queue of `n` requests. -/
def crowded (n : Nat) : State :=
  base.updEngine 1 fun e =>
    { e with queue := List.replicate n { port := .b, slot := 7, req := .discover 1, entry := none, identity := 0, segment := 1 } }

/-- The three lengths that the statement tells apart: a place and none waiting, no place, two places. -/
theorem test_hyp_LineRequestEntersTheQueue_lengths :
    (((crowded 7).engine 1).queue.length < 8 ∧ (crowded 7).waitingFor 1 .b = none) ∧ 8 ≤ ((crowded 8).engine 1).queue.length ∧
      ((crowded 6).engine 1).queue.length ≤ 6 ∧
      (run1 (.nodeRead .a) (headed (crowded 8) .a .nodeRead [5, 0, 4, 2])).port .a =
        { (headed (crowded 8) .a .nodeRead [5, 0, 4, 2]).port .a with waitsFor := some 1 } := by decide +kernel

theorem test_hyp_LineRequestRefusalAnswersFirstFailure :
    let s := baseWith { entry5 with state := .absent }
    let f := base.updEngine 1 fun e => { e with state := .fault }
    s.firstFailure .a (byte (5 : Handle).val) false (some 0) = none ∧
      s.firstFailure .a (byte (5 : Handle).val) true (some 0) = none ∧
      s.lineFailure 5 transferState none = some .wrongState ∧ s.lineFailure 5 moveState (some 42) = some .wrongState ∧
      base.lineFailure 5 moveState (some 7) = some .addressInUse ∧ f.lineFailure 5 retireState none = some .segmentFault ∧
      f.segmentCondition 1 = some .segmentFault ∧ f.permits .a 1 = true ∧ loaded.permits .b 0 = false ∧
      seedable.seeding = true := by decide +kernel

theorem test_hyp_MoveAndRetireAdmissionsMarkTheEntry :
    base.firstFailure .a (byte (5 : Handle).val) true (some 40) = none ∧
      ((base.engine 1).queue.length < 8 ∧ base.waitingFor 1 .b = none) ∧ base.lineFailure 5 moveState (some 200) = none ∧
      base.lineFailure 5 retireState none = none ∧ (base.entry 5).state = priorState .present := by decide +kernel

/-- Both ports' heads wait for the queue of segment 1. -/
def bothWait : State :=
  ((headed (headed base .a .nodeRead [5, 0, 4, 2]) .b .nodeWrite [5, 0, 4, 2]).updPort .a
    fun x => { x with waitsFor := some 1 }).updPort .b fun x => { x with waitsFor := some 1 }

theorem test_hyp_IntakeArbiterAdmitsByMode :
    bothWait.runState.isStarting = false ∧ base.waitingFor 1 .a = none ∧ base.waitingFor 1 .b = none ∧
      bothWait.waitingFor 1 .a = some (0, .nodeRead 5 0 4 2) ∧ (bothWait.engine 1).settings.mode = .roundRobin ∧
      (bothWait.slot .a 0 = .waiting (req .nodeRead [5, 0, 4, 2]) ∧ (bothWait.port .a).waiting = [0]) ∧
      (bothWait.engine 1).lastServed = PortId.a.other ∧ (bothWait.engine 1).queue.length < 8 ∧
      (match bothWait.checkLine .a (checkedAnew (.nodeRead 5 39 4 2)) with | .ok g => g = 1 | .error _ => False) := by
  refine ⟨by decide +kernel, by decide +kernel, by decide +kernel, by decide +kernel, by decide +kernel, by decide +kernel,
    by decide +kernel, by decide +kernel, ?_⟩
  rfl

/-- A MOVE and a RETIRE that wait for the queue of segment 1, admitted (R146, R154). -/
theorem test_hyp_IntakeArbiterAdmitsByMode_entries :
    let waits (k : ReqKind) (body : List Byte) : State := (headed base .a k body).updPort .a fun x => { x with waitsFor := some 1 }
    let m := run1 (.intakeAdmission 1) (waits .move [5, 42, 40])
    let r := run1 (.intakeAdmission 1) (waits .retire [5, 1, 40])
    (waits .move [5, 42, 40]).waitingFor 1 .a = some (0, .move 5 42 40) ∧
      (waits .retire [5, 1, 40]).waitingFor 1 .a = some (0, .retire 5 true 40) ∧
      ((m.entry 5).state, (m.entry 5).generation, m.mapSlot 1 42) = (.moving .present 42, 41, .reserved 5) ∧
      ((r.entry 5).state, (r.entry 5).generation) = (.retiring .present true, 41) := by decide +kernel

/-- Both ports' waiting NODE_WRITEs fail their checks anew, and both complete in the one event (R78). -/
theorem test_hyp_IntakeArbiterAdmitsByMode_bothFail :
    let s := ((headed (headed base .a .nodeWrite [5, 39, 4, 2]) .b .nodeWrite [5, 38, 4, 2]).updPort .a
      fun x => { x with waitsFor := some 1 }).updPort .b fun x => { x with waitsFor := some 1 }
    let t := run1 (.intakeAdmission 1) s
    s.waitingFor 1 .b = some (0, .nodeWrite 5 38 4 [2]) ∧
      ((t.slot .a 0).response?.map Response.status, (t.slot .b 0).response?.map Response.status, (t.engine 1).queue) =
        (some .stale, some .stale, []) := by decide +kernel

/-- Port A's waiting NODE_WRITE fails its checks anew, and port B's NODE_READ passes them. -/
theorem test_hyp_IntakeArbiterAdmitsByMode_failed :
    let s := ((headed (headed base .a .nodeWrite [5, 39, 4, 2]) .b .nodeRead [5, 39, 4, 2]).updPort .a
      fun x => { x with waitsFor := some 1 }).updPort .b fun x => { x with waitsFor := some 1 }
    s.waitingFor 1 .a = some (0, .nodeWrite 5 39 4 [2]) ∧ s.waitingFor 1 .b = some (0, .nodeRead 5 39 4 2) ∧
      s.slot .a 0 = .waiting (req .nodeWrite [5, 39, 4, 2]) ∧
      (match s.checkLine .a (checkedAnew (.nodeWrite 5 39 4 [2])) with | .ok _ => False | .error a => a.status = .stale) ∧
      (match s.checkLine .b (checkedAnew (.nodeRead 5 39 4 2)) with | .ok g => g = 1 | .error _ => False) := by
  refine ⟨by decide +kernel, by decide +kernel, by decide +kernel, ?_, ?_⟩ <;> rfl

theorem test_hyp_IntakeArbiterAdmitsByMode_full :
    8 ≤ (List.replicate 8 ({ port := .a, slot := 0, req := .discover 1, entry := none, identity := 0, segment := 1 } : QueueItem)).length := by
  decide

theorem test_hyp_PickTakesTheFirstAvailableWork :
    let r := base.updEngine 1 fun e => { e with resolution := [5] }
    let c := base.updEngine 1 fun e => { e with pass := { e.pass with active := true } }
    let q := queued base .nodeRead [5, 0, 4, 2] (.nodeRead 5 0 4 2) (some 5)
    (base.runState = .run ∧ (base.engine 1).state = .idle ∧ (base.engine 1).settings.on = true ∧ base.seeding = false) ∧
      (r.engine 1).resolution = [5] ∧ ((c.engine 1).pass.active = true ∧ (c.engine 1).queue = []) ∧
      (base.engine 1).pollDue = false ∧ (base.engine 1).discoveryDue = false ∧
      (q.engine 1).queue = [{ port := .a, slot := 0, req := .nodeRead 5 0 4 2, entry := some 5, identity := 0x00A41C3E0912, segment := 1 }] ∧
      q.slot .a 0 = .dispatched (req .nodeRead [5, 0, 4, 2]) ∧
      ((q.entry 5).state ≠ .free ∧ (q.entry 5).identity = 0x00A41C3E0912 ∧ (q.entry 5).segment = 1) ∧
      (q.entry 4).state = .free := by decide +kernel

/-- The picks of QUIETING and QUIET: no pass, or one that ends first; a queued head in QUIETING only. -/
theorem test_hyp_PickTakesTheFirstAvailableWork_quiet :
    let q := { queued base .nodeRead [5, 0, 4, 2] (.nodeRead 5 0 4 2) (some 5) with runState := .quieting }
    let s := { passing with runState := .quiet }
    (q.runState.isStarting = false ∧ q.runState ≠ .run ∧ q.runState ≠ .quiet) ∧ q.readied 1 = q ∧
      q.slot .a 0 = .dispatched (req .nodeRead [5, 0, 4, 2]) ∧ ((run1 (.pick 1) q).engine 1).state = .transaction ∧
      (s.runState.isStarting = false ∧ s.runState = .quiet ∧ (s.engine 1).pass.active = true) ∧
      ((s.readied 1).engine 1).pass.active = false := by decide +kernel

theorem test_hyp_PollTurnPollsTheFirstDueEntry :
    let s := base.updEngine 1 fun e => { e with pollDue := true }
    s.runState = .run ∧ (s.engine 1).resolution = [] ∧ (s.engine 1).pollDue = true ∧
      (s.engine 1).cursor + Fin.ofNat 128 5 = 5 ∧ (s.entry 5).segment = 1 ∧ (s.entry 5).state = .present ∧
      (s.entry 5).stride = none ∧ ∀ j : Fin 5, ((s.entry ((s.engine 1).cursor + Fin.ofNat 128 j.val)).state = .free) := by
  decide +kernel

/-- In QUIETING a turn whose one polled entry has its stride counter above 0 finds nothing and lowers the counter; the pick goes on
to the head of the queue (R106, R205). -/
theorem test_hyp_PollTurnPollsTheFirstDueEntry_none :
    let s := { (queued (baseWith { entry5 with stride := some { value := 3, counter := 2 } }) .nodeRead [5, 0, 4, 2]
      (.nodeRead 5 0 4 2) (some 5)).updEngine 1 fun e => { e with pollDue := true } with runState := .quieting }
    let t := run1 (.pick 1) s
    s.runState.isStarting = false ∧ (s.engine 1).resolution = [] ∧ (s.engine 1).pollDue = true ∧
      (∀ h : Handle, (s.entry h).state = .free ∨ (h = 5 ∧ (s.entry h).stride = some { value := 3, counter := 2 })) ∧
      ((t.entry 5).stride, (t.engine 1).pollDue, (t.engine 1).cursor, t.slot .a 0) =
        (some { value := 3, counter := 1 }, false, 0, .onLine (req .nodeRead [5, 0, 4, 2])) := by decide +kernel

theorem test_hyp_PicksStartJoinAndEndPasses :
    let q := queued base .discover [1] (.discover 1) none
    (q.engine 1).state = .idle ∧ (q.engine 1).settings.on = true ∧ (q.engine 1).resolution = [] ∧ (q.engine 1).pollDue = false ∧
      ((q.engine 1).queue.map QueueItem.req) = [.discover 1] ∧ q.slot .a 0 = .dispatched (req .discover [1]) ∧
      q.runState = .run ∧ (q.engine 1).tookQueue = false ∧ (q.engine 1).pass.active = false ∧ (q.engine 1).parked = 0 ∧
      (q.entry 0).state = .free := by decide +kernel

theorem test_hyp_PicksStartJoinAndEndPasses_due :
    let s := base.updEngine 1 fun e => { e with discoveryDue := true, parked := 1 }
    s.runState = .run ∧ s.seeding = false ∧ (s.engine 1).state = .idle ∧ (s.engine 1).resolution = [] ∧
      (s.engine 1).pollDue = false ∧ (s.engine 1).pass.active = false ∧ (s.engine 1).discoveryDue = true ∧
      (s.engine 1).queue = [] ∧ 0 < (s.engine 1).parked ∧ (s.entry 0).state = .free ∧ ¬ 0 < (base.engine 1).parked := by
  decide +kernel

theorem test_hyp_PicksStartJoinAndEndPasses_quiet :
    let s := { passing with runState := .quiet }
    s.slotsAgree ∧ (s.engine 1).state = .idle ∧ (s.engine 1).settings.on = true ∧ (s.engine 1).pass.active = true ∧
      (s.engine 1).pass.attached = [(.a, 0)] ∧
      ((run1 (.pick 1) s).slot .a 0).response? = answer .discover .ok 0 [3, 0, 0, 0, 0, 0] := by
  refine ⟨?_, by decide +kernel, by decide +kernel, by decide +kernel, by decide +kernel, by decide +kernel⟩
  have h := passing_slotsAgree id (fun _ => rfl) (fun _ => rfl) (by decide +kernel)
  rw [show passing.updEngine 1 id = passing from State.updEngine_id ..] at h
  exact h

/-! ### Attempts -/

theorem test_hyp_AttemptsMoveThroughTheirPhases :
    let f := (Work.poll 5 0x00A41C3E0912 1 7).frame
    ((polling entry5 0 .idleWait [] false).engine 1).line.attempt =
        some { frame := f, phase := .idleWait, received := [], openRun := false, slotsRead := 0 } ∧
      ((polling entry5 0 .idleWait [] false).engine 1).line.driving = false ∧ f.function.addressed = true ∧
      f.function.expectsReply = true ∧ (Work.callUnbound).frame.function = .callUnbound ∧ f.bits.getD 1 false = true ∧ 1 < 11 ∧
      f.bits.getD 12 false = true ∧ 11 ≤ 12 ∧ f.replyAddress = 7 ∧
      (0x00310F2200C4 : Ident) ≠ 0 ∧ (0x00310F2200C4 : Ident) ≠ BitVec.allOnes 48 := by decide +kernel

theorem test_hyp_UnansweredAttemptIsRepeated :
    (polling entry5 1 .address [] false).attempting 1 { work := .poll 5 0x00A41C3E0912 1 7, owner := none, retries := 1 }
        { frame := (Work.poll 5 0x00A41C3E0912 1 7).frame, phase := .address, received := [], openRun := false, slotsRead := 0 } ∧
      1 < ((polling entry5 1 .address [] false).engine 1).settings.retries ∧
      (∀ h adr, Work.poll 5 0x00A41C3E0912 1 7 ≠ .retire h adr true) ∧
      ((polling entry5 1 .address [] false).updEngine 1 fun e => { e with line := { e.line with driving := true } }).engine 1 =
        { (polling entry5 1 .address [] false).engine 1 with
          line := { ((polling entry5 1 .address [] false).engine 1).line with driving := true } } := by
  refine ⟨working_attempting .., by decide +kernel, by intros; simp, by simp⟩

/-- A reply's characters in turn, and one that fails in each place (R61). -/
theorem test_hyp_AttemptsMoveThroughTheirPhases_reply :
    let f := (Work.nodeRead 5 4 2 0x00A41C3E0912 1 7).frame
    let t (got : List Byte) (ph : AttemptPhase) : Attempt :=
      { frame := f, phase := ph, received := got, openRun := false, slotsRead := 0 }
    (t [] .replyWait).takes true 7 ∧ (t [7] .reply).takes false 0 ∧ (t [7] .reply).takes false 255 ∧ (t [7, 0] .reply).takes false 2 ∧
      (t [7, 1] .reply).takes false 32 ∧ (t [7, 0, 2] .reply).takes false 0xAA ∧ (t [7, 0, 2, 0xAA, 0xBB] .reply).takes false 9 ∧
      (t [] .replyWait).rejects false 7 ∧ (t [] .replyWait).rejects true 8 ∧ (t [7] .reply).rejects true 0 ∧
      (t [7, 0] .reply).rejects false 3 ∧ (t [7, 1] .reply).rejects false 33 ∧ (t [7, 0, 2] .reply).rejects true 0 ∧
      ({ t [7] .reply with frame := (Work.poll 5 0 1 7).frame } : Attempt).rejects false 1 := by
  simp [Attempt.takes, Attempt.rejects, Work.frame, Frame.replyAddress, Frame.replyLength, bareFrame, Function.refuseAllowed]

/-- A reply character from another address ends the attempt FRAMING at once (R61). -/
theorem test_replyCharacter_wrongAddress :
    ((run1 (.replyCharacter 1 (dataChar true 8)) (polling entry5 0 .replyWait [] false)).engine 1).activity.map Activity.retries =
      some 1 := by decide +kernel

theorem test_hyp_PollOutcomesDecideTheEntry_counts :
    let s := polling { entry5 with silence := 1 } 2 .replyWait [] false
    let t := polling { entry5 with silence := 2 } 2 .replyWait [] false
    let u := polling { entry5 with state := .absent, age := 7 } 2 .replyWait [] false
    ((s.engine 1).settings.on = true ∧ (s.engine 1).settings.retries ≤ 2) ∧ min ((s.entry 5).silence + 1) 7 < s.threshold 1 ∧
      t.threshold 1 ≤ min ((t.entry 5).silence + 1) 7 ∧
      (1 ≤ (u.engine 1).settings.grace ∧ (u.engine 1).settings.grace ≤ min ((u.entry 5).age + 1) 15 ∧ (u.entry 5).claim = none) ∧
      ¬ ((u.engine 1).settings.grace ≤ min (6 + 1) 15) ∧ (5 : Handle) ∉ (s.engine 1).resolution := by decide +kernel

theorem test_hyp_PollOutcomesDecideTheEntry_states :
    ((baseWith { entry5 with state := .seeded }).entry 5).state = .seeded ∧
      ((baseWith { entry5 with state := .moving .present 42 }).entry 5).inHand ∧
      ((baseWith (freeEntry 1 false false)).entry 5).state = .free ∧
      (base.entry 5).identity = 0x00A41C3E0912 ∧ (base.entry 5).identity ≠ 1 ∧ (base.entry 5).segment = 1 ∧
      (base.entry 5).segment ≠ 2 ∧ (1 : Ident) ≠ 0x00A41C3E0912 ∧ (base.engine 1).staysOn = true :=
  ⟨by decide +kernel, .inl ⟨.present, 42, by decide +kernel⟩, by decide +kernel, by decide +kernel, by decide +kernel,
    by decide +kernel, by decide +kernel, by decide, by decide +kernel⟩

/-- A poll answered by another identity disputes its entry (R110). -/
theorem test_replyCharacter_otherIdentity :
    let reply := whole ([7, 0, 7] ++ identBytes 0x00A41C3E0A00 ++ [0x21])
    let t := run1 (.replyCharacter 1 (dataChar false (reply.getLastD 0))) (polling entry5 0 .reply reply.dropLast false)
    ((t.entry 5).state, (t.engine 1).resolution, (t.port .a).notices.sticky) = (.conflict, [5], 0x20) := by decide +kernel

/-! ### Transactions that conclude: one witness for each final outcome, in any state and for any activity

`working` puts the attempt in its phase; the outcome's command then concludes it. -/

/-- The activity that `working` carries. -/
def act (w : Work) (o : Option Owner) (n : Nat) : Activity := { work := w, owner := o, retries := n }

/-- Its attempt. -/
def att (w : Work) (ph : AttemptPhase) (got : List Byte) (openRun : Bool) : Attempt :=
  { frame := w.frame, phase := ph, received := got, openRun := openRun, slotsRead := 0 }

theorem test_concludes_noReply (s : State) (g : Seg) (st : EngineState) (w : Work) (o : Option Owner) (n : Nat)
    (hn : (s.engine g).settings.retries ≤ n) :
    (working s g st w o n .replyWait [] false 0).concludes g (act w o n) (att w .replyWait [] false) (.replyWindowTimeout g 40)
      .noReply (working s g st w o n .replyWait [] false 0) :=
  ⟨.inl (by simpa [working, act] using hn), rfl, .inl ⟨rfl, 40, by decide, rfl⟩⟩

theorem test_concludes_framing (s : State) (g : Seg) (st : EngineState) (w : Work) (o : Option Owner) (n : Nat)
    (hn : (s.engine g).settings.retries ≤ n) :
    (working s g st w o n .reply [] false 0).concludes g (act w o n) (att w .reply [] false) (.characterGapTimeout g 12)
      .framing (working s g st w o n .reply [] false 0) :=
  ⟨.inl (by simpa [working, act] using hn), .inl ⟨rfl, rfl, rfl, 12, by decide, rfl⟩⟩

/-- A first character from another address misframes, and so does the end of a malformed character's run. -/
theorem test_misframes (s : State) (g : Seg) (st : EngineState) (w : Work) (o : Option Owner) (n : Nat) (d : Byte)
    (hd : d ≠ w.frame.replyAddress) :
    (working s g st w o n .replyWait [] false 0).misframes g (att w .replyWait [] false) (.replyCharacter g (dataChar true d))
        (working s g st w o n .replyWait [] false 0) ∧
      (working s g st w o n .reply [] true 0).misframes g (att w .reply [] true) (.lineReturnsRecessive g 19)
        ((working s g st w o n .reply [] true 0).updLine g (·.showing .recessive 0)) :=
  ⟨.inr (.inl ⟨rfl, true, d, ⟨.inl rfl, rfl, .inr hd⟩, rfl⟩), .inr (.inr (.inr ⟨rfl, rfl, rfl, 19, by decide, rfl⟩))⟩

theorem test_concludes_collision (s : State) (g : Seg) (st : EngineState) (w : Work) (o : Option Owner) (n : Nat) :
    (working s g st w o n .replyWait [] false 0).concludes g (act w o n) (att w .replyWait [] false) (.collision g 20) .collision
      ((working s g st w o n .replyWait [] false 0).updLine g (·.showing .dominant 20)) :=
  ⟨.inl rfl, 20, by decide, rfl, rfl⟩

theorem test_concludes_contention (s : State) (g : Seg) (st : EngineState) (w : Work) (o : Option Owner) (n : Nat)
    (hn : (s.engine g).settings.retries ≤ n) (hd : (s.engine g).line.driving = true) :
    (working s g st w o n .ownBreak [] false 0).concludes g (act w o n) (att w .ownBreak [] false) (.breakRelease g 24) .contention
      ((working s g st w o n .ownBreak [] false 0).updLine g (·.releasing 24)) :=
  ⟨.inl (by simpa [working, act] using hn), rfl, by simpa [working] using hd, 24, by decide, rfl, rfl⟩

theorem test_concludes_sent (s : State) (g : Seg) (st : EngineState) (w : Work) (o : Option Owner) (n : Nat)
    (hw : w.frame.function.addressed = false ∧ w.frame.function.expectsReply = false ∧ w.frame.function ≠ .callUnbound) :
    (working s g st w o n .address [] false 0).concludes g (act w o n) (att w .address [] false) (.commandFrameSent g) .sent
      (working s g st w o n .address [] false 0) := ⟨rfl, hw.1, hw.2.1, hw.2.2, rfl, rfl⟩

/-- The reply characters before the last, and the last. -/
def replyHead (w : Work) (st : Byte) (d : List Byte) : List Byte := [w.frame.replyAddress, st, byte d.length] ++ d

theorem test_concludes_accept (s : State) (g : Seg) (st : EngineState) (w : Work) (o : Option Owner) (n : Nat) (d : List Byte)
    (hf : w.frame.function.expectsReply = true) (hd : d.length ≤ 32) (hl : byte d.length = w.frame.replyLength) :
    let x := crc (replyHead w 0 d)
    let got := replyHead w 0 d ++ [x.extractLsb' 8 8]
    (working s g st w o n .reply got false 0).concludes g (act w o n) (att w .reply got false)
      (.replyCharacter g (dataChar false (x.extractLsb' 0 8))) (.accept d) (working s g st w o n .reply got false 0) :=
  ⟨hf, hd, hl, ⟨rfl, rfl, _, by simp [att, replyHead, bytes16], rfl⟩, rfl⟩

theorem test_concludes_refuse (s : State) (g : Seg) (st : EngineState) (w : Work) (o : Option Owner) (n : Nat) (code : Byte)
    (hf : w.frame.function.refuseAllowed = true) (hc : code ≠ 0) :
    let x := crc (replyHead w code [])
    let got := replyHead w code [] ++ [x.extractLsb' 8 8]
    (working s g st w o n .reply got false 0).concludes g (act w o n) (att w .reply got false)
      (.replyCharacter g (dataChar false (x.extractLsb' 0 8))) (.refuse code) (working s g st w o n .reply got false 0) :=
  ⟨hf, hc, [], by decide, ⟨rfl, rfl, _, by simp [att, replyHead, bytes16], rfl⟩, rfl⟩

/-- Every other hypothesis of a statement about a conclusion holds of `working` over a part that is on, whatever the phase. -/
theorem working_hypotheses (s : State) (g : Seg) (st : EngineState) (w : Work) (o : Option Owner) (n : Nat) (ph : AttemptPhase)
    (got : List Byte) (openRun : Bool) (hs : (s.engine g).staysOn = true) :
    (working s g st w o n ph got openRun 0).attempting g (act w o n) (att w ph got openRun) ∧
      (att w ph got openRun).frame = (act w o n).work.frame ∧
      ((working s g st w o n ph got openRun 0).engine g).staysOn = true ∧
      (∀ h, (working s g st w o n ph got openRun 0).entry h = s.entry h) ∧
      (∀ p i, (working s g st w o n ph got openRun 0).slot p i = s.slot p i) :=
  ⟨working_attempting .., rfl, by simpa [working, Engine.staysOn] using hs, by simp [working], by simp [working]⟩

theorem base_staysOn : (base.engine 1).staysOn = true ∧ (base.engine 1).settings.retries ≤ 2 := by decide +kernel

/-- The functions whose outcomes the statements tell apart. -/
theorem test_hyp_conclusions_frames (h : Handle) (x w : Ident) (i l a t : Byte) (d : List Byte) (k : JoinKind) (f : Bool) :
    (Work.nodeRead h i 2 x 1 a).frame.replyLength = 2 ∧ (Work.nodeRead h i l x 1 a).frame.function.refuseAllowed = true ∧
      (Work.nodeWrite h i d x 1 a).frame.replyLength = 0 ∧ (Work.nodeWrite h i d x 1 a).frame.function.refuseAllowed = true ∧
      (Work.resolvePresence h a x).frame.replyLength = 7 ∧ (Work.move .one h a t x).frame.replyLength = 0 ∧
      (Work.move .one h a t x).frame.function.refuseAllowed = true ∧ (Work.move .two h a t x).frame.replyLength = 7 ∧
      (Work.move .three h a t x).frame.replyLength = 7 ∧ (Work.move .stray h a t x).frame.function = .releaseUnless ∧
      (Work.retire h a f).frame.replyLength = 0 ∧ (Work.retire h a f).frame.function.refuseAllowed = true ∧
      (Work.assign k w l a).frame.replyLength = 7 ∧ (Work.park w).frame.function = .park ∧
      (identBytes x ++ [i]).length = 7 := by
  refine ⟨rfl, rfl, rfl, rfl, rfl, rfl, rfl, rfl, rfl, rfl, rfl, rfl, rfl, rfl, rfl⟩

theorem test_hyp_HostTransactionOutcomesAnswerAndCount :
    let s := carried base .nodeRead [5, 0, 4, 2]
    s.slot .a 0 = .onLine (req .nodeRead [5, 0, 4, 2]) ∧ (s.engine 1).staysOn = true ∧ (s.engine 1).settings.retries ≤ 2 ∧
      ((s.entry 5).state ≠ .free ∧ (s.entry 5).identity = 0x00A41C3E0912 ∧ (s.entry 5).segment = 1) ∧
      (s.entry 5).identity ≠ 1 ∧ min ((s.entry 5).silence + 1) 7 < s.threshold 1 ∧ s.threshold 1 ≤ min (2 + 1) 7 := by
  decide +kernel

/-- An orphaned NODE_READ on a segment that has been switched off: silence grows, no slot is touched, the engine becomes OFF and its
pass ends OFF (R92, R100, R176). -/
theorem test_hyp_HostTransactionOutcomesAnswerAndCount_orphan :
    let w : Work := .nodeRead 5 4 2 0x00A41C3E0912 1 7
    let s := (working (carried base .list []) 1 .transaction w (some { port := .a, slot := none }) 2 .replyWait [] false 0).updEngine 1
      fun e => { e with settings := { e.settings with on := false }, offTaken := true, pass := { e.pass with active := true } }
    let t := run1 (.replyWindowTimeout 1 40) s
    s.attempting 1 (act w (some { port := .a, slot := none }) 2) (att w .replyWait [] false) ∧ (s.engine 1).staysOn = false ∧
      ((t.entry 5).silence, t.slot .a 0, (t.engine 1).state, (t.engine 1).pass.active) =
        (1, .onLine (req .list []), .off, false) :=
  ⟨by simp [State.attempting, working, act, att], by decide +kernel, by decide +kernel⟩

theorem test_hyp_ResolutionStepTwoDecidesTheEntry :
    ((baseWith { entry5 with state := .conflict }).entry 5).state = .conflict ∧
      ((baseWith { entry5 with state := .retiring .conflict true }).entry 5).state = .retiring .conflict true ∧
      (base.entry 5).state = .present := by decide +kernel

theorem test_hyp_MoveLadderStepsAndEndings :
    let s := carried (baseWith { entry5 with state := .moving .present 42 }) .move [5, 42, 40]
    s.slot .a 0 = .onLine (req .move [5, 42, 40]) ∧ (s.entry 5).state = .moving .present 42 ∧ (s.engine 1).staysOn = true ∧
      (s.engine 1).settings.retries ≤ 2 := by decide +kernel

theorem test_hyp_RetireOutcomesFreeOrReturnTheEntry :
    let s := carried (baseWith { entry5 with state := .retiring .absent true }) .retire [5, 1, 40]
    s.slot .a 0 = .onLine (req .retire [5, 1, 40]) ∧ (s.entry 5).state = .retiring .absent true ∧ (s.engine 1).staysOn = true ∧
      (s.engine 1).settings.retries ≤ 2 := by decide +kernel

theorem test_hyp_SentFrameEndsItsActivity :
    let s := working (carried base .broadcast [1, 4, 2]) 1 .transaction (.broadcast 4 [2]) ownerA 0 .address [] false 0
    (s.engine 1).staysOn = true ∧ s.slot .a 0 = .onLine (req .broadcast [1, 4, 2]) ∧ (s.engine 1).pass.contests < 64 ∧
      s.attempting 1 (act (.broadcast 4 [2]) ownerA 0) (att (.broadcast 4 [2]) .address [] false) ∧
      s.concludes 1 (act (.broadcast 4 [2]) ownerA 0) (att (.broadcast 4 [2]) .address [] false) (.commandFrameSent 1) .sent s :=
  ⟨by decide +kernel, by decide +kernel, by decide +kernel, working_attempting .., test_concludes_sent _ _ _ _ _ _ ⟨rfl, rfl, by decide⟩⟩

theorem test_hyp_ContestOutcomesFollowTheSlots :
    let s := contesting .classWait 0x00310F2200C4
    let t := contesting .slots 0
    (s.engine 1).staysOn = true ∧ (s.engine 1).pass.contests < 63 ∧ (t.engine 1).pass.active = true ∧
      ((s.engine 1).line.attempt.map Attempt.phase, (t.engine 1).line.attempt.map Attempt.phase) =
        (some .classWait, some .slots) := by decide +kernel

theorem test_hyp_ContestOutcomesFollowTheSlots_contention :
    let s := (working base 1 .contest .callUnbound none 2 .ownBreak [] false 0).updLine 1 fun l => { l with driving := true }
    (s.engine 1).staysOn = true ∧ (s.engine 1).settings.retries ≤ 2 ∧ (s.engine 1).line.driving = true ∧
      ((run1 (.breakRelease 1 24) s).engine 1).pass.lost = 1 := by decide +kernel

theorem test_hyp_ContestOutcomesFollowTheSlots_attached :
    (passing.updEngine 1 fun e =>
      { e with
        state := .contest, activity := some (act .callUnbound none 0),
        line := { e.line with attempt := some (att .callUnbound .slots [] false) } }).slotsAgree :=
  passing_slotsAgree _ (fun _ => rfl) (fun _ => rfl) fun a h => by cases h; rfl

theorem test_hyp_JoinDecisionFollowsTheDirectory :
    let w : Ident := 0x00310F2200C4
    let s := contesting .classWait w
    (∀ h : Handle, (s.entry h).state = .free ∨ (s.entry h).identity ≠ w) ∧ (s.entry 0).state = .free ∧
      (isAddress 1 = true ∧ s.inPool 1 1 = true ∧ s.mapSlot 1 1 = .empty) ∧
      (∀ b : Byte, isAddress b = true → (1 : Byte).toNat ≤ b.toNat) ∧
      (∀ b : Byte, { s with maps := Vector.replicate 4 (Vector.replicate 200 .joinHold) }.mapSlot 1 b = .empty → isAddress b = false) ∧
      (∀ k : Handle, (s.entry k).state ≠ .free → (s.entry k).identity = 0x00A41C3E0912 → k = 5) ∧ (s.entry 5).segment = 1 ∧
      (s.entry 5).segment ≠ 2 ∧
      ((contesting .classWait 0x00A41C3E0912).attempt 1).map Attempt.slotsRead = some 0x00A41C3E0912 := by
  decide +kernel

theorem test_hyp_AssignOutcomesApplyTheFreshDecision :
    (base.engine 1).pass.contests < 64 ∧
      (∀ k : Handle, (base.entry k).state = .free ∨ (base.entry k).identity ≠ 0x00310F2200C4) ∧ (base.entry 0).state = .free ∧
      (∀ k : Handle, k < 0 → (base.entry k).state ≠ .free) ∧
      (∀ k : Handle, (base.entry k).state ≠ .free → (base.entry k).identity = 0x00A41C3E0912 → k = 5) ∧
      ((base.entry 5).segment = 1 ∧ (base.entry 5).address = 7 ∧ (base.entry 5).state = .present ∧ (base.entry 5).cls = 0x21) ∧
      (let t := baseWith { entry5 with segment := 2, state := .absent }
       (t.entry 5).segment ≠ 1 ∧ (t.entry 5).state = .absent) ∧
      (let u := { base with entries := Vector.replicate 128 entry5 }
       ∀ h : Handle, (u.entry h).state ≠ .free) := by decide +kernel

theorem test_hyp_PassesEndAtTheLimitOrASwitchOff :
    let off (s : State) : State := s.updEngine 1 fun e => { e with offTaken := true, pass := { e.pass with active := true } }
    let full (s : State) : State := s.updEngine 1 fun e => { e with pass := { e.pass with active := true, contests := 64 } }
    ((off base).engine 1).staysOn = false ∧ ((full base).engine 1).staysOn = true ∧ 64 ≤ ((full base).engine 1).pass.contests ∧
      ((full base).engine 1).pass.active = true ∧ ((off (contesting .slots 0)).engine 1).staysOn = false ∧
      63 ≤ ((full (contesting .slots 0)).engine 1).pass.contests := by decide +kernel

/-- The 64th contest of a pass ends in a join, and the pass LIMIT with it (R131, R137). -/
theorem test_hyp_PassesEndAtTheLimitOrASwitchOff_join :
    let w : Ident := 0x00310F2200C4
    let k : Work := .assign .newJoin w 0x33 9
    let x := crc (replyHead k 0 (identBytes w ++ [0x33]))
    let s := (working (base.setMap 1 9 .joinHold) 1 .contest k none 0 .reply
      (replyHead k 0 (identBytes w ++ [0x33]) ++ [x.extractLsb' 8 8]) false 0).updEngine 1
        fun e => { e with pass := { e.pass with active := true, contests := 64 } }
    let t := run1 (.replyCharacter 1 (dataChar false (x.extractLsb' 0 8))) s
    (∀ h : Handle, (s.entry h).state = .free ∨ (s.entry h).identity ≠ w) ∧ (s.engine 1).staysOn = true ∧
      64 ≤ (s.engine 1).pass.contests ∧
      ((t.entry 0).state, (t.engine 1).state, (t.engine 1).pass.active, (t.engine 1).pass.joined) =
        (.present, .idle, false, 1) := by decide +kernel

theorem test_hyp_StuckLineEntersFault :
    let s := polling entry5 0 .idleWait [] false
    (s.engine 1).line.driving = false ∧ 64 ≤ 64 ∧
      s.attempting 1 { work := .poll 5 0x00A41C3E0912 1 7, owner := none, retries := 0 }
        { frame := (Work.poll 5 0x00A41C3E0912 1 7).frame, phase := .idleWait, received := [], openRun := false, slotsRead := 0 } :=
  ⟨by decide +kernel, by decide, working_attempting ..⟩

/-- Slots and lists agree also where a request waits for the queue of the stuck segment. -/
theorem test_hyp_StuckLineEntersFault_waiting :
    let s := working waits 1 .transaction (.poll 5 0x00A41C3E0912 1 7) none 0 .idleWait [] false 0
    s.waitingFor 1 .a = some (0, .nodeRead 5 0 4 2) ∧ s.slotsAgree ∧
      ((run1 (.stuck 1 64) s).slot .a 0).response?.map Response.status = some .segmentFault := by
  refine ⟨by decide +kernel, ?_, by decide +kernel⟩
  obtain ⟨hl, h1, h2, h3, h4⟩ := waits_slotsAgree
  have h0 : ∀ g, (waits.engine g).carriedSlots = [] := by decide +kernel
  have hc : ∀ g, ((working waits 1 .transaction (.poll 5 0x00A41C3E0912 1 7) none 0 .idleWait [] false 0).engine g).carriedSlots = [] := by
    decide +kernel
  have hq : (working waits 1 .transaction (.poll 5 0x00A41C3E0912 1 7) none 0 .idleWait [] false 0).queuedSlots =
      waits.queuedSlots := by
    funext g; simp only [State.queuedSlots, working, State.updEngine_engine]; split <;> simp_all
  refine ⟨hl, by rw [hq]; exact h1, by rw [funext hc]; decide, by rw [hq]; exact h3,
    fun g x hx => by rw [hc] at hx; simp at hx⟩

/-- Slots and lists agree also where the stuck activity carries a MOVE or a RETIRE, where a DISCOVER is attached to its pass, and
where a DISCOVER is queued. -/
theorem test_hyp_StuckLineEntersFault_answers :
    (working (carried base .move [5, 42, 40]) 1 .transaction (.move .one 5 7 42 0x00A41C3E0912) ownerA 0 .idleWait [] false
        0).slotsAgree ∧
      (working (carried base .retire [5, 0, 40]) 1 .transaction (.retire 5 7 false) ownerA 0 .idleWait [] false 0).slotsAgree ∧
      (working passing 1 .transaction (.poll 5 0x00A41C3E0912 1 7) none 0 .idleWait [] false 0).slotsAgree ∧
      (queued base .discover [1] (.discover 1) none).slotsAgree :=
  ⟨carried_slotsAgree _ _ _ (by decide +kernel) (by decide +kernel),
    carried_slotsAgree _ _ _ (by decide +kernel) (by decide +kernel),
    passing_slotsAgree _ (fun _ => rfl) (fun _ => rfl) fun a h => by cases h; rfl, queued_slotsAgree _ _ _ _ _ rfl rfl⟩

/-- A carried MOVE is answered SEGMENT_FAULT with code 0, its step, PRESENT and the address, a queued DISCOVER with end reason
FAULT and counts of 0; an enabled SEG_FAULT wakes a part in QUIET, and one that is not enabled does not (R95, R182, R207). -/
theorem test_stuck_answersAndWakes :
    let w : Work := .move .one 5 7 42 0x00A41C3E0912
    let m := run1 (.stuck 1 64) (working (carried (baseWith { entry5 with state := .moving .present 42 }) .move [5, 42, 40]) 1
      .transaction w ownerA 0 .idleWait [] false 0)
    let d := run1 (.stuck 1 64) (working (queued base .discover [1] (.discover 1) none) 1 .transaction
      (.poll 5 0x00A41C3E0912 1 7) none 0 .idleWait [] false 0)
    let quiet (k : BitVec 13) : State :=
      ({ polling entry5 0 .idleWait [] false with runState := .quiet }).updPort .b fun x =>
        { x with notices := { x.notices with mask := k } }
    (m.slot .a 0).response? = answer .move .segmentFault 41 [0, 1, 2, 7] ∧
      (d.slot .a 0).response? = answer .discover .segmentFault 0 [5, 0, 0, 0, 0, 0] ∧
      (run1 (.stuck 1 64) (quiet 0x200)).runState = .run ∧ (run1 (.stuck 1 64) (quiet 0x401)).runState = .quiet := by
  decide +kernel

/-- A stuck line returns a queued MOVE's entry and empties an ASSIGN's JOIN_HOLD (R94, R135). -/
theorem test_stuck_returns :
    let s := working (movingQueued.setMap 1 9 .joinHold) 1 .contest (.assign .newJoin 1 0x33 9) none 0 .idleWait [] false 0
    let t := run1 (.stuck 1 64) s
    ((t.entry 5).state, (t.entry 5).generation, t.mapSlot 1 42, t.mapSlot 1 9, (t.slot .a 0).response?.map Response.status,
      (t.engine 1).pass.lost) = (.present, 41, .empty, .empty, some .segmentFault, 1) := by decide +kernel

end Sys2Proof.Tests
end

section
/-! PROOFS. The lookups of one directory entry and of a range of handles: LIST (R24) and READ_ENTRY (R25, R214). First the
answer of any lookup, then what a LIST's body, filters, handles and cursor are, then the bytes of a READ_ENTRY body. -/

namespace Sys2Proof.Machine

/-! ### The answer of a lookup -/

theorem exec_list (p : PortId) (s : State) : exec (.list p) s = .next (s.serve p .list (lookup bodyList answerList)) := rfl

theorem exec_readEntry (p : PortId) (s : State) :
    exec (.readEntry p) s = .next (s.serve p .readEntry (lookup bodyByte answerReadEntry)) := rfl

/-- A lookup whose body does not suit its kind (R30). -/
theorem State.serve_lookup_unsuited {β : Type} {s : State} {p : PortId} {i : SlotIx} {r : Request} {rest : List SlotIx}
    {k : ReqKind} (hd : s.heads p i r rest) (hk : r.kind = k) {parse : List Byte → Option β} (f : State → PortId → β → Answer)
    (hp : parse r.body = none) : s.serve p k (lookup parse f) = s.answered p i r rest .badRequest 0 [] :=
  State.serve_same hd hk _ (ans := badRequest) (by simp [lookup, hp])

/-- A lookup whose body suits its kind answers and changes nothing else (R21). -/
theorem State.serve_lookup_suited {β : Type} {s : State} {p : PortId} {i : SlotIx} {r : Request} {rest : List SlotIx}
    {k : ReqKind} (hd : s.heads p i r rest) (hk : r.kind = k) {parse : List Byte → Option β} (f : State → PortId → β → Answer)
    {x : β} (hp : parse r.body = some x) :
    s.serve p k (lookup parse f) = s.answered p i r rest (f s p x).status (f s p x).generation (f s p x).body :=
  State.serve_same hd hk _ (by simp [lookup, hp])

/-! ### LIST: the body and the filters -/

/-- The fields of a LIST body whose bytes are in range. -/
def listBodyOf (start seg set opt c : Byte) : ListBody :=
  { start := start.toNat, segment := segOf seg, states := set, cls := if opt = 1 then none else some c }

/-- A byte out of range makes a LIST body unsuited. -/
theorem bodyList_none {start seg set opt c : Byte}
    (bad : 128 < start.toNat ∨ (3 < seg.toNat ∧ seg ≠ 0xFF) ∨ set = 0 ∨ set.getLsbD 7 = true ∨ 1 < opt.toNat) :
    bodyList [start, seg, set, opt, c] = none := by
  by_cases ho : 1 < opt.toNat
  · simp [bodyList, flagOf_none opt ho]
  · simp only [bodyList]
    split
    · refine if_neg fun hc => ?_
      simp only [Bool.and_eq_true, Bool.or_eq_true, decide_eq_true_eq, bne_iff_ne, Bool.not_eq_true',
        BitVec.msb_eq_getLsbD_last] at hc
      obtain ⟨⟨⟨hstart, hseg⟩, hset⟩, hbit⟩ := hc
      rcases bad with h | ⟨h, hn⟩ | h | h | h
      · omega
      · exact hseg.elim (by omega) hn
      · exact hset h
      · simp_all
      · exact ho h
    · rfl

theorem flagOf_some {b : Byte} (n : b.toNat ≤ 1) : flagOf b = some (decide (b = 1)) := by
  rcases Nat.le_one_iff_eq_zero_or_eq_one.1 n with h | h
  · rw [show b = 0 from BitVec.eq_of_toNat_eq h]; rfl
  · rw [show b = 1 from BitVec.eq_of_toNat_eq h]; rfl

/-- With every byte in range a LIST body reads as its fields. -/
theorem bodyList_some {start seg set opt c : Byte} (hstart : start.toNat ≤ 128) (hseg : seg.toNat ≤ 3 ∨ seg = 0xFF)
    (hset : set ≠ 0) (hbit : set.getLsbD 7 = false) (hopt : opt.toNat ≤ 1) :
    bodyList [start, seg, set, opt, c] = some (listBodyOf start seg set opt c) := by
  have hseg' : seg.toNat < 4 ∨ seg = 0xFF := hseg.imp_left (by omega)
  have hmsb : set.msb = false := by rw [BitVec.msb_eq_getLsbD_last]; exact hbit
  simp only [bodyList, flagOf_some hopt, decide_eq_true_eq]
  exact if_pos (by simpa [hstart, hmsb] using And.intro hseg' hset)

theorem segOf_eq_none_iff (b : Byte) : segOf b = none ↔ 3 < b.toNat := by
  unfold segOf; split <;> simp <;> omega

theorem segOf_eq_some_iff (b : Byte) (g : Seg) : segOf b = some g ↔ g.val = b.toNat := by
  unfold segOf
  split
  · simp [Fin.ext_iff, eq_comm]
  · simp; omega

/-- The three filters of a LIST; a FREE entry passes only filters of any. -/
theorem listMatches_iff (q : ListBody) (e : Entry) :
    listMatches q e = true ↔
      q.states.getLsbD (stateCode e.state).toNat = true ∧
        (q.segment = none ∨ (e.state ≠ .free ∧ q.segment = some e.segment)) ∧
        (q.cls = none ∨ (e.state ≠ .free ∧ q.cls = some e.cls)) := by
  by_cases hf : e.state = .free <;> simp [listMatches, Entry.isFree, hf]

/-- The handles that a LIST may answer: from the start handle on, those whose entry passes the filters. -/
def State.listed (s : State) (q : ListBody) (h : Handle) : Prop := q.start ≤ h.val ∧ listMatches q (s.entry h) = true

/-- The matches of a LIST in the bytes of its body. -/
theorem State.listed_listBodyOf_iff (s : State) {start seg set opt c : Byte} (hseg : seg.toNat ≤ 3 ∨ seg = 0xFF) (h : Handle) :
    s.listed (listBodyOf start seg set opt c) h ↔
      start.toNat ≤ h.val ∧ set.getLsbD (stateCode (s.entry h).state).toNat = true ∧
        (seg = 0xFF ∨ ((s.entry h).state ≠ .free ∧ (s.entry h).segment.val = seg.toNat)) ∧
        (opt = 1 ∨ ((s.entry h).state ≠ .free ∧ (s.entry h).cls = c)) := by
  have hany : 3 < seg.toNat ↔ seg = 0xFF := ⟨fun n => hseg.resolve_left (by omega), by rintro rfl; decide⟩
  have hcls : ((if opt = 1 then none else some c) = none ∨
        ((s.entry h).state ≠ .free ∧ (if opt = 1 then none else some c) = some (s.entry h).cls)) ↔
      (opt = 1 ∨ ((s.entry h).state ≠ .free ∧ (s.entry h).cls = c)) := by
    by_cases ho : opt = 1
    · simp only [ho, if_true, true_or]
    · simp only [ho, if_false, reduceCtorEq, false_or, Option.some.injEq, @eq_comm _ c]
  simp only [State.listed, listMatches_iff, listBodyOf, segOf_eq_none_iff, segOf_eq_some_iff, hany, hcls]

/-! ### LIST: the handles and the cursor -/

/-- Of a list in ascending order, what stands before a taken element is taken. -/
theorem mem_take_of_lt_of_pairwise {α : Type} [Preorder α] {l : List α} (hl : l.Pairwise (· < ·)) {n : Nat} {x y : α}
    (hy : y ∈ l.take n) (hx : x ∈ l) (hxy : x < y) : x ∈ l.take n := by
  rw [← List.take_append_drop n l] at hl hx
  refine (List.mem_append.1 hx).resolve_right fun hd => ?_
  obtain ⟨_, _, before⟩ := List.pairwise_append.1 hl
  exact lt_asymm hxy (before y hy x hd)

/-- Every match of a LIST, before the scan stops at 12. -/
def State.allListed (s : State) (q : ListBody) : List Handle :=
  allHandles.filter fun h => q.start ≤ h.val && listMatches q (s.entry h)

theorem listHandles_eq_take (s : State) (q : ListBody) : listHandles s q = (s.allListed q).take 12 := rfl

theorem State.mem_allListed_iff (s : State) (q : ListBody) (h : Handle) : h ∈ s.allListed q ↔ s.listed q h := by
  simp [State.allListed, State.listed, allHandles]

theorem State.allListed_pairwise (s : State) (q : ListBody) : (s.allListed q).Pairwise (· < ·) :=
  (List.pairwise_lt_finRange 128).sublist List.filter_sublist

theorem listed_of_mem_listHandles {s : State} {q : ListBody} {h : Handle} (hm : h ∈ listHandles s q) : s.listed q h :=
  (s.mem_allListed_iff q h).1 (List.mem_of_mem_take hm)

theorem listHandles_pairwise (s : State) (q : ListBody) : (listHandles s q).Pairwise (· < ·) :=
  (s.allListed_pairwise q).sublist (List.take_sublist _ _)

theorem listHandles_length_le (s : State) (q : ListBody) : (listHandles s q).length ≤ 12 := List.length_take_le _ _

/-- A scan that collects fewer than 12 has passed handle 127. -/
theorem mem_listHandles_of_length_lt {s : State} {q : ListBody} (short : (listHandles s q).length < 12) {h : Handle}
    (hh : s.listed q h) : h ∈ listHandles s q := by
  rw [listHandles_eq_take, List.length_take] at short
  rw [listHandles_eq_take, List.take_of_length_le (by omega)]
  exact (s.mem_allListed_iff q h).2 hh

/-- The scan leaves out no match before one that it collects. -/
theorem mem_listHandles_of_lt {s : State} {q : ListBody} {h k : Handle} (hk : k ∈ listHandles s q) (hh : s.listed q h)
    (hlt : h < k) : h ∈ listHandles s q :=
  mem_take_of_lt_of_pairwise (s.allListed_pairwise q) hk ((s.mem_allListed_iff q h).2 hh) hlt

theorem listCursor_of_length_lt {hs : List Handle} (short : hs.length < 12) : listCursor hs = 128 :=
  if_neg (Nat.ne_of_lt short)

theorem listCursor_of_getLast? {hs : List Handle} {h : Handle} (full : hs.length = 12) (last : hs.getLast? = some h) :
    listCursor hs = byte (h.val + 1) := by
  unfold listCursor
  rw [if_pos (show hs.length = Config.listMax from full), last]

/-- Settles O22: the scan is the ascending list of all matches cut at 12. -/
theorem listCollectsTwelveMatches : Obligations.ListCollectsTwelveMatches := by
  intro s p i r rest start seg set opt c hd hk hb
  refine ⟨fun bad => ?_, fun hstart hseg hset hbit hopt => ?_⟩
  · rw [exec_list, State.serve_lookup_unsuited hd hk answerList (hb ▸ bodyList_none bad)]
  · intro found
    have found_iff (h : Handle) : s.listed (listBodyOf start seg set opt c) h ↔ found h := s.listed_listBodyOf_iff hseg h
    refine ⟨listHandles s (listBodyOf start seg set opt c), fun h hm => (found_iff h).1 (listed_of_mem_listHandles hm),
      listHandles_pairwise s _, listHandles_length_le s _,
      fun short h hh => mem_listHandles_of_length_lt short ((found_iff h).2 hh),
      fun h k hm hh hlt => mem_listHandles_of_lt hm ((found_iff h).2 hh) hlt, listCursor _, listCursor_of_length_lt,
      fun h full last => listCursor_of_getLast? full last, ?_⟩
    rw [exec_list, State.serve_lookup_suited hd hk answerList (hb ▸ bodyList_some hstart hseg hset hbit hopt)]
    rfl

/-! ### READ_ENTRY: the presence flags and the bytes -/

/-- The presence flags of label and stride. -/
def optionalFlags (e : Entry) : Byte := presenceBit 0 e.label.isSome ||| presenceBit 1 e.stride.isSome

/-- The presence byte of an entry: bits 0 and 1 for label and stride, bits 2 to 4 for the transient fields. -/
def entryFlags (e : Entry) : Byte := optionalFlags e ||| (transientBytes e.state).1

theorem presenceBit_getLsbD (k n : Nat) (b : Bool) (hn : n < 8) : (presenceBit k b).getLsbD n = (b && decide (n = k)) := by
  cases b
  · simp [presenceBit]
  · simp only [presenceBit, if_true, BitVec.getLsbD_shiftLeft, BitVec.getLsbD_one]
    rw [Bool.eq_iff_iff]
    simp
    omega

theorem optionalFlags_lt (e : Entry) : (optionalFlags e).toNat < 4 := by
  unfold optionalFlags
  cases e.label.isSome <;> cases e.stride.isSome <;> decide

theorem entryFlags_getLsbD (e : Entry) (n : Nat) (hn : n < 8) :
    (entryFlags e).getLsbD n =
      (e.label.isSome && decide (n = 0) || e.stride.isSome && decide (n = 1) || (transientBytes e.state).1.getLsbD n) := by
  simp only [entryFlags, optionalFlags, BitVec.getLsbD_or, presenceBit_getLsbD _ n _ hn]

/-- The transient fields use bits 2 to 4 of the presence byte only. -/
theorem transientBytes_presence (x : EntryState) :
    (transientBytes x).1.toNat < 32 ∧ (transientBytes x).1.getLsbD 0 = false ∧ (transientBytes x).1.getLsbD 1 = false := by
  cases x <;> simp [transientBytes]

theorem entryFlags_lt (e : Entry) : (entryFlags e).toNat < 32 := by
  rw [entryFlags, BitVec.toNat_or]
  exact Nat.or_lt_two_pow (n := 5) ((optionalFlags_lt e).trans (by decide)) (transientBytes_presence e.state).1

theorem entryFlags_label (e : Entry) : (entryFlags e).getLsbD 0 = e.label.isSome := by
  obtain ⟨_, low, _⟩ := transientBytes_presence e.state
  rw [entryFlags_getLsbD e 0 (by decide), low]
  simp

theorem entryFlags_stride (e : Entry) : (entryFlags e).getLsbD 1 = e.stride.isSome := by
  obtain ⟨_, _, low⟩ := transientBytes_presence e.state
  rw [entryFlags_getLsbD e 1 (by decide), low]
  simp

/-- Above bits 0 and 1 stand the presence bits of the transient fields. -/
theorem entryFlags_transient (e : Entry) (n : Nat) (low : 2 ≤ n) (hn : n < 8) :
    (entryFlags e).getLsbD n = (transientBytes e.state).1.getLsbD n := by
  rw [entryFlags_getLsbD e n hn, decide_eq_false (by omega), decide_eq_false (by omega)]
  simp

/-- In MOVING and in RETIRING the presence bits are those of prior state and move target, and of prior state and force. -/
theorem entryFlags_of_transient {e : Entry} {t : Byte} (ht : (transientBytes e.state).1 = t) :
    (entryFlags e).getLsbD 2 = t.getLsbD 2 ∧ (entryFlags e).getLsbD 3 = t.getLsbD 3 ∧
      (entryFlags e).getLsbD 4 = t.getLsbD 4 := by
  subst ht
  exact ⟨entryFlags_transient e 2 (by decide) (by decide), entryFlags_transient e 3 (by decide) (by decide),
    entryFlags_transient e 4 (by decide) (by decide)⟩

/-- An entry in neither MOVING nor RETIRING has no transient field. -/
theorem transientBytes_of_lasting {x : EntryState} (hm : ∀ pr t, x ≠ .moving pr t) (hr : ∀ pr f, x ≠ .retiring pr f) :
    transientBytes x = (0, 0, 0, 0) := by
  cases x with
  | moving pr t => exact absurd rfl (hm pr t)
  | retiring pr f => exact absurd rfl (hr pr f)
  | free | seeded | present | absent | conflict => rfl

/-- The READ_ENTRY body in the words of its layout: an absent stride is sent as two bytes of 0. -/
theorem entryBody_eq (h : Handle) (e : Entry) :
    entryBody h e =
      [byte h.val, stateCode e.state] ++ identBytes e.identity ++ [e.cls, byte e.segment.val, e.address, entryFlags e] ++
        bytes16 (e.label.getD 0) ++
        [(e.stride.map fun st => byte st.value).getD 0, (e.stride.map fun st => byte st.counter).getD 0, byte e.silence,
         byte e.age, claimCode e.claim, (if e.watchA then 1 else 0) + (if e.watchB then 2 else 0), (transientBytes e.state).2.1,
         (transientBytes e.state).2.2.1, (transientBytes e.state).2.2.2] := by
  have hvalue : byte ((e.stride.map Stride.value).getD 0) = (e.stride.map fun st => byte st.value).getD 0 := by
    cases e.stride <;> rfl
  have hcounter : byte ((e.stride.map Stride.counter).getD 0) = (e.stride.map fun st => byte st.counter).getD 0 := by
    cases e.stride <;> rfl
  have hwatch : watchCode e.watchA e.watchB = (if e.watchA then 1 else 0) + (if e.watchB then 2 else 0) := by
    cases e.watchA <;> cases e.watchB <;> rfl
  simp only [entryBody, hvalue, hcounter, hwatch]
  rfl

theorem answerReadEntry_byte (s : State) (p : PortId) (h : Handle) :
    answerReadEntry s p (byte h.val) =
      { status := .ok, generation := (s.entry h).generation, body := entryBody h (s.entry h) } := by
  simp [answerReadEntry]

/-- Settles O23: the body is `entryBody`, its flags and transient fields those of the entry's state form. -/
theorem readEntryReportsEveryField : Obligations.ReadEntryReportsEveryField := by
  intro s p i r rest b hd hk hb
  have answers : exec (.readEntry p) s = .next (s.answered p i r rest (answerReadEntry s p b).status
      (answerReadEntry s p b).generation (answerReadEntry s p b).body) := by
    rw [exec_readEntry, State.serve_lookup_suited hd hk answerReadEntry (hb ▸ rfl : bodyByte r.body = some b)]
  refine ⟨fun big => ?_, ?_⟩
  · simpa [answerReadEntry, handleOf_none b big, Answer.bare] using answers
  · rintro h rfl e
    refine ⟨entryFlags e, (transientBytes e.state).2.1, (transientBytes e.state).2.2.1, (transientBytes e.state).2.2.2,
      entryFlags_lt e, entryFlags_label e, entryFlags_stride e, fun pr t hs => ?moving, fun pr f hs => ?retiring,
      fun hm hr => ?lasting, ?body⟩
    case moving =>
      obtain ⟨h2, h3, h4⟩ := entryFlags_of_transient (e := e) (t := 0x0C) (by rw [hs]; rfl)
      rw [h2, h3, h4, hs]
      exact ⟨rfl, rfl, rfl, rfl, rfl, rfl⟩
    case retiring =>
      obtain ⟨h2, h3, h4⟩ := entryFlags_of_transient (e := e) (t := 0x14) (by rw [hs]; rfl)
      rw [h2, h3, h4, hs]
      exact ⟨rfl, rfl, rfl, rfl, rfl, rfl⟩
    case lasting =>
      have ht := transientBytes_of_lasting hm hr
      simpa [entryFlags, ht] using optionalFlags_lt e
    case body =>
      rw [answers, answerReadEntry_byte]
      exact congrArg (fun body => Host.Outcome.next (s.answered p i r rest .ok e.generation body)) (entryBody_eq h e)

end Sys2Proof.Machine
end

section
/-! PROOFS. The host changes to one entry that move no generation: CLAIM and UNCLAIM (R39, R40), WATCH and UNWATCH (R43,
R44). First what each serves on a one-byte body, then the frame of what they write, then the dispatched request. -/

namespace Sys2Proof.Machine

theorem exec_claim (p : PortId) (s : State) : exec (.claim p) s = .next (s.serve p .claim (serveClaim (some p))) := rfl

theorem exec_unclaim (p : PortId) (s : State) : exec (.unclaim p) s = .next (s.serve p .unclaim (serveClaim none)) := rfl

theorem exec_watch (p : PortId) (s : State) : exec (.watch p) s = .next (s.serve p .watch (serveWatch true)) := rfl

theorem exec_unwatch (p : PortId) (s : State) : exec (.unwatch p) s = .next (s.serve p .unwatch (serveWatch false)) := rfl

/-! ### CLAIM and UNCLAIM: the checks and the claim -/

/-- An expected generation of 0 is unconditional: with it check 5 fails no request (R35). -/
theorem State.firstFailure_unconditional (s : State) (p : PortId) (b : Byte) (claim : Bool) :
    s.firstFailure p b claim (some 0) = s.firstFailure p b claim none := by
  simp [State.firstFailure]

theorem State.checkGeneration_zero (s : State) (h : Handle) : s.checkGeneration h 0 = .ok () := if_pos (.inl rfl)

/-- The checks of a CLAIM or UNCLAIM, 1 to 3 and its own form of check 4, are the common checks with an unconditional check 5. -/
theorem State.commonAll_unconditional (s : State) (p : PortId) (b : Byte) :
    s.commonAll p b 0 = (do let h ← s.commonToPermit p b; s.checkClaim p h; return h) := by
  simp only [State.commonAll, State.checkGeneration_zero]
  rfl

/-- A CLAIM or UNCLAIM that fails a check answers and writes nothing. -/
theorem serveClaim_failed {s : State} {p : PortId} {b : Byte} {st : Status} {gen : Byte} {bd : List Byte} (c : Option PortId)
    (hf : s.firstFailure p b true none = some (st, gen, bd)) :
    serveClaim c s p [b] = (s, { status := st, generation := gen, body := bd }) := by
  have checks := State.commonAll_error ((s.firstFailure_unconditional p b true).trans hf)
  rw [State.commonAll_unconditional] at checks
  cases hp : s.commonToPermit p b with
  | error a => simp_all [serveClaim, bodyByte, bind, Except.bind]
  | ok h => cases hc : s.checkClaim p h <;> simp_all [serveClaim, bodyByte, bind, Except.bind, pure, Except.pure]

/-- A CLAIM or UNCLAIM that fails no check writes the claim and answers with it. -/
theorem serveClaim_passed {s : State} {p : PortId} {h : Handle} (c : Option PortId)
    (hf : s.firstFailure p (byte h.val) true none = none) :
    serveClaim c s p [byte h.val] =
      (s.setEntry h { s.entry h with claim := c },
        { status := .ok, generation := (s.entry h).generation, body := [claimCode c] }) := by
  have checks := State.commonAll_ok ((s.firstFailure_unconditional p (byte h.val) true).trans hf)
  rw [State.commonAll_unconditional] at checks
  cases hp : s.commonToPermit p (byte h.val) with
  | error a => simp_all [bind, Except.bind]
  | ok k =>
    cases hc : s.checkClaim p k <;> simp_all [serveClaim, bodyByte, State.okFor, bind, Except.bind, pure, Except.pure]

/-- A dispatched CLAIM or UNCLAIM that fails a check. -/
theorem State.serve_claim_failed {s : State} {p : PortId} {i : SlotIx} {r : Request} {rest : List SlotIx} {k : ReqKind}
    (hd : s.heads p i r rest) (hk : r.kind = k) {b : Byte} (hb : r.body = [b]) (c : Option PortId) {st : Status} {gen : Byte}
    {bd : List Byte} (hf : s.firstFailure p b true none = some (st, gen, bd)) :
    s.serve p k (serveClaim c) = s.answered p i r rest st gen bd :=
  State.serve_same hd hk _ (hb ▸ serveClaim_failed c hf)

/-- A dispatched CLAIM or UNCLAIM that fails no check. -/
theorem State.serve_claim_passed {s : State} {p : PortId} {i : SlotIx} {r : Request} {rest : List SlotIx} {k : ReqKind}
    (hd : s.heads p i r rest) (hk : r.kind = k) {h : Handle} (hb : r.body = [byte h.val]) (c : Option PortId)
    (hf : s.firstFailure p (byte h.val) true none = none) :
    s.serve p k (serveClaim c) =
      (s.setEntry h { s.entry h with claim := c }).answered p i r rest .ok (s.entry h).generation [claimCode c] :=
  State.serve_of_heads hd hk _ (hb ▸ serveClaim_passed c hf) (by simp) (by simp)

/-! ### WATCH and UNWATCH: the watch set and the change set -/

@[simp] theorem Entry.setWatch_generation (e : Entry) (p : PortId) (on : Bool) :
    (e.setWatch p on).generation = e.generation := by
  cases p <;> rfl

/-- The watch set's code as the sum of its ports' bits. -/
theorem watchCode_eq (a b : Bool) : watchCode a b = (if a then 1 else 0) + (if b then 2 else 0) := by
  cases a <;> cases b <;> rfl

/-- A port with handle `h` out of its change set. -/
def PortState.dropChange (x : PortState) (h : Handle) : PortState :=
  { x with notices := { x.notices with changed := x.notices.changed.set h false } }

@[simp] theorem PortState.dropChange_waiting (x : PortState) (h : Handle) : (x.dropChange h).waiting = x.waiting := rfl

@[simp] theorem PortState.dropChange_slots (x : PortState) (h : Handle) : (x.dropChange h).slots = x.slots := rfl

/-- What a WATCH or UNWATCH writes: the watch set, and on leaving it the port's change set (R43, R44). -/
def State.watchWritten (s : State) (p : PortId) (on : Bool) (h : Handle) : State :=
  let t := s.setEntry h ((s.entry h).setWatch p on)
  if on then t else t.updPort p fun x => x.dropChange h

@[simp] theorem State.watchWritten_entry (s : State) (p : PortId) (on : Bool) (h : Handle) :
    (s.watchWritten p on h).entry h = (s.entry h).setWatch p on := by
  cases on <;> simp [State.watchWritten]

/-- The WAITING list and the slots of the port stay as they were. -/
theorem State.watchWritten_requests (s : State) (p : PortId) (on : Bool) (h : Handle) (i : SlotIx) :
    ((s.watchWritten p on h).port p).waiting = (s.port p).waiting ∧ (s.watchWritten p on h).slot p i = s.slot p i := by
  cases on <;> simp [State.watchWritten, State.slot]

theorem serveWatch_badHandle (s : State) (p : PortId) (on : Bool) {b : Byte} (big : 127 < b.toNat) :
    serveWatch on s p [b] = (s, Answer.bare .badHandle 0) := by
  simp [serveWatch, bodyByte, handleOf_none b big]

/-- A WATCH or UNWATCH of a handle, FREE or not, passes. -/
theorem serveWatch_handle (s : State) (p : PortId) (on : Bool) (h : Handle) :
    serveWatch on s p [byte h.val] = (s.watchWritten p on h, (s.watchWritten p on h).okFor h
      [watchCode ((s.watchWritten p on h).entry h).watchA ((s.watchWritten p on h).entry h).watchB]) := by
  simp only [serveWatch, bodyByte, handleOf_byte]
  rfl

/-- A dispatched WATCH or UNWATCH of a byte above 127. -/
theorem State.serve_watch_badHandle {s : State} {p : PortId} {i : SlotIx} {r : Request} {rest : List SlotIx} {k : ReqKind}
    (hd : s.heads p i r rest) (hk : r.kind = k) {b : Byte} (hb : r.body = [b]) (on : Bool) (big : 127 < b.toNat) :
    s.serve p k (serveWatch on) = s.answered p i r rest .badHandle 0 [] :=
  State.serve_same hd hk _ (hb ▸ serveWatch_badHandle s p on big)

/-- A dispatched WATCH or UNWATCH of a handle. -/
theorem State.serve_watch_handle {s : State} {p : PortId} {i : SlotIx} {r : Request} {rest : List SlotIx} {k : ReqKind}
    (hd : s.heads p i r rest) (hk : r.kind = k) {h : Handle} (hb : r.body = [byte h.val]) (on : Bool) :
    s.serve p k (serveWatch on) =
      (s.watchWritten p on h).answered p i r rest .ok ((s.entry h).setWatch p on).generation
        [(if ((s.entry h).setWatch p on).watchA then 1 else 0) + (if ((s.entry h).setWatch p on).watchB then 2 else 0)] := by
  obtain ⟨sameWaiting, sameSlot⟩ := s.watchWritten_requests p on h i
  rw [State.serve_of_heads hd hk _ (hb ▸ serveWatch_handle s p on h) sameWaiting sameSlot]
  simp only [State.okFor, State.watchWritten_entry, watchCode_eq]

/-- Settles O27: each of the four kinds is one of the two served forms. -/
theorem claimsAndWatchesAreWritten : Obligations.ClaimsAndWatchesAreWritten := by
  refine ⟨fun s p i r rest b hd hb => ⟨fun st gen bd hf => ⟨fun hk => ?_, fun hk => ?_⟩, ?_⟩,
    fun s p i r rest b hd hb => ⟨fun hk => ⟨fun big => ?_, ?_⟩, fun hk => ⟨fun big => ?_, ?_⟩⟩⟩
  · rw [exec_claim, State.serve_claim_failed hd hk hb _ hf]
  · rw [exec_unclaim, State.serve_claim_failed hd hk hb _ hf]
  · rintro h rfl hf
    refine ⟨fun hk => ?_, fun hk => ?_⟩
    · rw [exec_claim, State.serve_claim_passed hd hk hb _ hf]
      cases p <;> rfl
    · rw [exec_unclaim, State.serve_claim_passed hd hk hb _ hf]
      rfl
  · rw [exec_watch, State.serve_watch_badHandle hd hk hb _ big]
  · rintro h rfl e
    rw [exec_watch, State.serve_watch_handle hd hk hb true]
    rfl
  · rw [exec_unwatch, State.serve_watch_badHandle hd hk hb _ big]
  · rintro h rfl e
    rw [exec_unwatch, State.serve_watch_handle hd hk hb false]
    rfl

end Sys2Proof.Machine
end

section
/-! PROOFS. The start of an exchange (R160 to R162, R189, R209): the fields of a composed status byte, the levels it shows, the
response it chooses and the bits shifted out. -/

namespace Sys2Proof.Machine

/-- EXCHANGE_START out of an exchange (R160). -/
theorem exec_exchangeStart {s : State} {p : PortId} (out : (s.port p).exchange = none) :
    exec (.exchangeStart p) s = .next (s.setPort p { s.port p with exchange := some (s.newExchange p) }) := by
  change execExchangeStart p s = _
  simp only [execExchangeStart, out, State.updPort_eq]

/-! ### The bits shifted out -/

/-- The clocks `8 * n` to `8 * n + 7` shift out byte `n`, most significant bit first. -/
theorem Exchange.bitAt_of_lt (x : Exchange) (n : Nat) {k : Nat} (hk : k < 8) :
    x.bitAt (8 * n + k) = (x.bytes.getD n 0x00).getLsbD (7 - k) := by
  have hbyte : (8 * n + k) / 8 = n := by omega
  have hbit : (8 * n + k) % 8 = k := by omega
  rw [Exchange.bitAt, hbyte, hbit, Exchange.byteAt]

/-! ### The fields of a status byte -/

theorem boolByte_toNat (b : Bool) : (boolByte b).toNat = b.toNat := by cases b <;> rfl

theorem getLsbD_of_toNat {w : Nat} {x : BitVec w} {k : Nat} {b : Bool} (h : x.toNat / 2 ^ k % 2 = b.toNat) :
    x.getLsbD k = b := by
  rw [← BitVec.testBit_toNat, Nat.testBit_eq_decide_div_mod_eq, h]
  cases b <;> rfl

section
variable {condition outcome : Nat} (small : 5 * condition + outcome ≤ 24) (attention ready free : Bool)
include small

/-- With a state code of at most 24 no field of the status byte runs into another (R209). -/
theorem statusByteOf_toNat :
    (statusByteOf condition outcome attention ready free).toNat =
      8 * (5 * condition + outcome) + 4 * attention.toNat + 2 * ready.toNat + free.toNat := by
  have hatt := attention.toNat_le
  have hready := ready.toNat_le
  have hfree := free.toNat_le
  simp only [statusByteOf, byte, BitVec.toNat_add, BitVec.toNat_mul, BitVec.ofNat_eq_ofNat, BitVec.toNat_ofNat,
    boolByte_toNat]
  omega

/-- The state code is in bits 7 to 3; below it stand attention, response-waiting and free-slot-available (R209). -/
theorem statusByteOf_fields :
    (statusByteOf condition outcome attention ready free).toNat / 8 = 5 * condition + outcome ∧
      (statusByteOf condition outcome attention ready free).getLsbD 2 = attention ∧
      (statusByteOf condition outcome attention ready free).getLsbD 1 = ready ∧
      (statusByteOf condition outcome attention ready free).getLsbD 0 = free := by
  have hatt := attention.toNat_le
  have hready := ready.toNat_le
  have hfree := free.toNat_le
  have value := statusByteOf_toNat small attention ready free
  exact ⟨by omega, getLsbD_of_toNat (by omega), getLsbD_of_toNat (by omega), getLsbD_of_toNat (by omega)⟩

end

theorem State.condition_eq (s : State) : s.condition = s.reportedCondition := by
  unfold State.condition State.reportedCondition
  cases s.runState <;> cases s.seeding <;> rfl

theorem State.condition_le (s : State) : s.condition ≤ 4 := by
  rw [State.condition_eq]
  unfold State.reportedCondition
  split <;> decide

theorem outcomeCode_le (o : ExchangeOutcome) : outcomeCode o ≤ 4 := by
  cases o <;> decide

/-! ### The levels of a port -/

theorem Slot.isCompleted_iff (c : Slot) : c.isCompleted = true ↔ ∃ q r, c = .completed q r := by
  cases c <;> simp [Slot.isCompleted]

theorem vector_any_iff {α : Type} {n : Nat} (v : Vector α n) (f : α → Bool) :
    v.any f = true ↔ ∃ i : Fin n, f v[i] = true := by
  rw [Vector.any_eq_true, Fin.exists_iff]
  rfl

theorem PortState.responseReady_iff (x : PortState) :
    x.responseReady = true ↔ ∃ (i : SlotIx) (q : Request) (r : Response), x.slots[i] = .completed q r := by
  simp only [PortState.responseReady, vector_any_iff, Slot.isCompleted_iff]

theorem PortState.freeSlot_iff (x : PortState) : x.freeSlot = true ↔ ∃ i : SlotIx, x.slots[i] = .free := by
  simp only [PortState.freeSlot, vector_any_iff, beq_iff_eq]

theorem NoticeUnit.anyChanged_iff (u : NoticeUnit) : u.anyChanged = true ↔ ∃ h : Handle, u.changed[h] = true := by
  simp only [NoticeUnit.anyChanged, vector_any_iff, id]

theorem stickyPositions_getLsbD {k : Nat} (hk : k < 13) : stickyPositions.getLsbD k = decide (2 ≤ k) := by
  revert k; decide

theorem levelFlags_getLsbD (ready changed : Bool) {k : Nat} (hk : k < 13) :
    (levelFlags ready changed).getLsbD k = ((decide (k = 0) && ready) || (decide (k = 1) && changed)) := by
  revert k ready changed; decide

/-- The flag set holds flag `k` exactly when the flag is set (R178, R180). -/
theorem PortState.flags_getLsbD_iff (x : PortState) {k : Nat} (hk : k < 13) : x.flags.getLsbD k = true ↔ x.flagSet k := by
  have hflags : x.flags.getLsbD k =
      ((x.notices.sticky.getLsbD k && decide (2 ≤ k)) ||
        ((decide (k = 0) && x.responseReady) || (decide (k = 1) && x.notices.anyChanged))) := by
    rw [PortState.flags, BitVec.getLsbD_or, BitVec.getLsbD_and, stickyPositions_getLsbD hk, levelFlags_getLsbD _ _ hk]
  obtain rfl | rfl | hsticky : k = 0 ∨ k = 1 ∨ 2 ≤ k := by omega
  · rw [hflags, PortState.flagSet, if_pos rfl, ← PortState.responseReady_iff]
    simp
  · rw [hflags, PortState.flagSet, if_neg Nat.one_ne_zero, if_pos rfl, ← NoticeUnit.anyChanged_iff]
    simp
  · have h0 : k ≠ 0 := by omega
    have h1 : k ≠ 1 := by omega
    simp [hflags, PortState.flagSet, hsticky, h0, h1]

/-- Some flag is set and enabled exactly when the masked flag set is not empty (R181). -/
theorem PortState.masked_ne_zero_iff (x : PortState) : x.flags &&& x.notices.mask ≠ 0 ↔ x.attends := by
  constructor
  · intro nonzero
    by_contra idle
    refine nonzero (BitVec.eq_of_getLsbD_eq fun k hk => ?_)
    have hk' : ¬ (x.flagSet k ∧ x.notices.mask.getLsbD k = true) := fun h => idle ⟨k, hk, h⟩
    rw [← x.flags_getLsbD_iff hk] at hk'
    simpa using hk'
  · rintro ⟨k, hk, hflag, hmask⟩ zero
    have hbit := congrArg (·.getLsbD k) zero
    simp [(x.flags_getLsbD_iff hk).2 hflag, hmask] at hbit

/-- The attention output is active out of STARTING while some flag is set and enabled (R181, R189). -/
theorem State.attention_iff (s : State) (p : PortId) :
    s.attention p = true ↔ s.runState.isStarting = false ∧ (s.port p).attends := by
  rw [State.attention, Bool.and_eq_true, Bool.not_eq_true', bne_iff_ne, PortState.masked_ne_zero_iff]

/-! ### The status byte and the response of a new exchange -/

theorem State.statusByte_settling {s : State} (h : s.runState.isSettling = true) (p : PortId) :
    s.statusByte p = statusByteOf 0 (outcomeCode (s.port p).previous) false false true := if_pos h

theorem State.statusByte_settled {s : State} (h : s.runState.isSettling = false) (p : PortId) :
    s.statusByte p = statusByteOf s.condition (outcomeCode (s.port p).previous) (s.attention p) (s.port p).responseReady
      (s.port p).freeSlot := if_neg (by simp [h])

/-- The status byte in SETTLING: condition 0, attention released, no response waiting, a free slot (R189). -/
theorem State.statusByte_toNat_settling {s : State} (h : s.runState.isSettling = true) (p : PortId) :
    (s.statusByte p).toNat = 8 * outcomeCode (s.port p).previous + 1 := by
  have hout := outcomeCode_le (s.port p).previous
  rw [State.statusByte_settling h, statusByteOf_toNat (by omega)]
  simp

/-- The largest state code is 24: QUIET after NOT_NOW (R209). -/
theorem State.conditionOutcome_le (s : State) (o : ExchangeOutcome) : 5 * s.condition + outcomeCode o ≤ 24 := by
  have hcond := s.condition_le
  have hout := outcomeCode_le o
  omega

theorem PortState.oldest_nil {x : PortState} (h : x.completed = []) : x.oldest = none := by
  simp only [PortState.oldest, h]

theorem PortState.oldest_cons {x : PortState} {i : SlotIx} {rest : List SlotIx} {q : Request} {r : Response}
    (h : x.completed = i :: rest) (hc : x.slots[i] = .completed q r) : x.oldest = some (i, r) := by
  simp only [PortState.oldest, h, hc]

theorem State.newExchange_settling {s : State} (h : s.runState.isSettling = true) (p : PortId) :
    s.newExchange p = { status := s.statusByte p, response := none, slot := none } := by
  simp [State.newExchange, h]

theorem State.newExchange_settled {s : State} (h : s.runState.isSettling = false) (p : PortId) :
    s.newExchange p = { status := s.statusByte p, response := (s.port p).oldest.map Prod.snd,
                        slot := (s.port p).oldest.map Prod.fst } := by
  simp [State.newExchange, h]

/-- Settles O16: the exchange is `newExchange`, its status byte read field by field. -/
theorem exchangeStartComposesStatusByte : Obligations.ExchangeStartComposesStatusByte := by
  intro s p out
  refine ⟨s.newExchange p, exec_exchangeStart out, fun n k hk => ?_, fun settled => ?_, fun settling => ?_⟩
  · exact Exchange.bitAt_of_lt _ n hk
  · have small := s.conditionOutcome_le (s.port p).previous
    obtain ⟨code, bit2, bit1, bit0⟩ :=
      statusByteOf_fields small (s.attention p) (s.port p).responseReady (s.port p).freeSlot
    rw [State.newExchange_settled settled, State.statusByte_settled settled]
    refine ⟨?_, ?_, ?_, ?_, ?_, fun empty => ?_, fun i rest q r oldest held => ?_⟩
    · rw [code, State.condition_eq]
    · rwa [code]
    · rw [bit2, State.attention_iff]
    · rw [bit1, PortState.responseReady_iff]; rfl
    · rw [bit0, PortState.freeSlot_iff]; rfl
    · simp [PortState.oldest_nil empty]
    · simp [PortState.oldest_cons oldest held]
  · rw [State.newExchange_settling settling]
    exact ⟨State.statusByte_toNat_settling settling p, rfl, rfl⟩

end Sys2Proof.Machine
end

section
/-! PROOFS. What every command keeps, part one: `State.Keeps`, the claim that an event keeps each property of an entry, a queue, a
resolution list, a change set and the run state, and the changes of one register or one entry that it is built from. -/

namespace Sys2Proof.Machine

/-! ### What an event may make of one entry -/

/-- A FREE entry holds the values of R13. -/
def Entry.bare (e : Entry) : Prop := e.state = .free → e = freeEntry e.generation e.watchA e.watchB

/-- The absent age is 0 in a state that does not keep it (R8). -/
def Entry.ageIdle (e : Entry) : Prop := e.state.keepsAge = false → e.age = 0

/-- A SEEDED or PRESENT entry's silence is below its segment's threshold (R113). -/
def Entry.below (T : Seg → Nat) (e : Entry) : Prop := e.state = .seeded ∨ e.state = .present → e.silence < T e.segment

/-- An event makes `f` of entry `e` and keeps what the rules say of one entry; `T` gives the thresholds in force. An entry is
filled by no such event (R13, R201), and keeps its watch set. -/
structure Entry.Keeps (T : Seg → Nat) (e f : Entry) : Prop where
  bare : e.bare → f.bare
  identity : f.isFree = false → e.isFree = false ∧ f.identity = e.identity
  counts : e.countsInRange → f.countsInRange
  age : e.ageIdle → f.ageIdle
  below : (∀ g, 1 ≤ T g) → e.below T → f.below T

theorem Entry.Keeps.refl (T : Seg → Nat) (e : Entry) : e.Keeps T e :=
  ⟨id, fun h => ⟨h, rfl⟩, id, id, fun _ => id⟩

theorem Entry.isFree_iff (e : Entry) : e.isFree = true ↔ e.state = .free := by simp [Entry.isFree]

theorem Entry.isFree_false_iff (e : Entry) : e.isFree = false ↔ e.state ≠ .free := by simp [Entry.isFree]

/-- The generation is no part of what `Keeps` says of the entry after the event. -/
theorem Entry.Keeps.withGeneration {T : Seg → Nat} {e f : Entry} (h : e.Keeps T f) (gen : Byte) :
    e.Keeps T { f with generation := gen } where
  bare he hf := by
    have := h.bare he hf
    rw [this]; rfl
  identity := h.identity
  counts := h.counts
  age := h.age
  below := h.below

/-! ### What every step keeps, property by property -/

/-- The change set of port `p` holds only handles that `p` watches (R186). -/
def State.watchedAt (s : State) (p : PortId) : Prop :=
  ∀ h : Handle, (s.port p).notices.changed[h] = true → (s.entry h).watches p = true

/-- From `s` to `t` the command queue stays, and so does every property that the parts of a command keep one by one. -/
structure State.Keeps (s t : State) : Prop where
  pending : t.pending = s.pending
  generations : s.generationsRun → t.generationsRun
  bare : s.freeEntriesBare → t.freeEntriesBare
  counts : s.countsInRange → t.countsInRange
  ages : s.agesWhileAbsent → t.agesWhileAbsent
  identities : s.identitiesDiffer → t.identitiesDiffer
  silences : s.silencesBelowThreshold → t.silencesBelowThreshold
  queues : s.queuesBounded → t.queuesBounded
  resolutions : s.resolutionsDistinct → t.resolutionsDistinct
  watched : ∀ p, s.watchedAt p → t.watchedAt p
  seeding : s.seedingInRun → t.seedingInRun
  drained : s.quietDrained → t.quietDrained

theorem State.Keeps.refl (s : State) : s.Keeps s := ⟨rfl, id, id, id, id, id, id, id, id, fun _ => id, id, id⟩

theorem State.Keeps.trans {s t u : State} (h : s.Keeps t) (k : t.Keeps u) : s.Keeps u where
  pending := k.pending.trans h.pending
  generations := k.generations ∘ h.generations
  bare := k.bare ∘ h.bare
  counts := k.counts ∘ h.counts
  ages := k.ages ∘ h.ages
  identities := k.identities ∘ h.identities
  silences := k.silences ∘ h.silences
  queues := k.queues ∘ h.queues
  resolutions := k.resolutions ∘ h.resolutions
  watched p := k.watched p ∘ h.watched p
  seeding := k.seeding ∘ h.seeding
  drained := k.drained ∘ h.drained

/-- Both branches of a decision keep what is kept. -/
theorem State.Keeps.ite {c : Prop} [Decidable c] {s t u : State} (ht : c → s.Keeps t) (hu : ¬ c → s.Keeps u) :
    s.Keeps (if c then t else u) := by
  split
  · exact ht (by assumption)
  · exact hu (by assumption)

/-! ### The base updates -/

/-- A port is written: only a watched handle joins its change set, and in QUIET no slot becomes busy. -/
theorem State.Keeps.setPort {s : State} {p : PortId} {x : PortState}
    (changed : ∀ h : Handle, x.notices.changed[h] = true →
      (s.port p).notices.changed[h] = true ∨ (s.entry h).watches p = true)
    (busy : s.runState = .quiet → (∀ i : SlotIx, (s.slot p i).isBusy = false) → ∀ i : SlotIx, x.slots[i].isBusy = false) :
    s.Keeps (s.setPort p x) where
  pending := by simp
  generations h := by simpa [State.generationsRun] using h
  bare h := by simpa [State.freeEntriesBare] using h
  counts h := by simpa [State.countsInRange] using h
  ages h := by simpa [State.agesWhileAbsent] using h
  identities h := by simpa [State.identitiesDiffer] using h
  silences h := by simpa [State.silencesBelowThreshold] using h
  queues h := by simpa [State.queuesBounded] using h
  resolutions h := by simpa [State.resolutionsDistinct] using h
  watched q h := by
    intro k hk
    rw [State.setPort_port] at hk
    rw [State.setPort_entry]
    split at hk
    · rename_i hq; subst hq; exact (changed k hk).elim (h k) id
    · exact h k hk
  seeding h := by simpa [State.seedingInRun] using h
  drained h := by
    intro hq
    rw [State.setPort_runState] at hq
    obtain ⟨slots, queues⟩ := h hq
    refine ⟨fun q i => ?_, by simpa using queues⟩
    rw [State.slot, State.setPort_port]
    split
    · exact busy hq (slots p) i
    · exact slots q i

/-- A port is written outside its slots and its notice unit. -/
theorem State.Keeps.setPort_lists {s : State} {p : PortId} {x : PortState} (notices : x.notices = (s.port p).notices)
    (slots : ∀ i : SlotIx, x.slots[i].isBusy = true → (s.slot p i).isBusy = true) : s.Keeps (s.setPort p x) :=
  .setPort (fun h => by rw [notices]; exact .inl) fun _ idle i =>
    Bool.eq_false_iff.2 fun busy => by simpa [idle i] using slots i busy

/-- An engine is written: its threshold stays, its queue and its resolution list keep their bounds, and it takes up no activity
in STARTING and no request in QUIET. -/
theorem State.Keeps.updEngine {s : State} {g : Seg} {f : Engine → Engine}
    (threshold : (f (s.engine g)).settings.threshold = (s.engine g).settings.threshold)
    (queue : (s.engine g).queue.length ≤ 8 → (f (s.engine g)).queue.length ≤ 8)
    (drained : s.runState = .quiet → (∀ (p : PortId) (i : SlotIx), (s.slot p i).isBusy = false) → (s.engine g).queue = [] →
      (f (s.engine g)).queue = [])
    (resolution : (s.engine g).resolution.Nodup → (f (s.engine g)).resolution.Nodup)
    (activity : s.runState.isStarting = true → (s.engine g).activity = none → (f (s.engine g)).activity = none) :
    s.Keeps (s.updEngine g f) where
  pending := rfl
  generations := id
  bare := id
  counts := id
  ages := id
  identities := id
  silences := by
    rintro ⟨hT, hbelow, hidle, hfree⟩
    have hth (k : Seg) : (s.updEngine g f).threshold k = s.threshold k := by
      unfold State.threshold
      rw [State.updEngine_engine]
      split
      · rename_i hk; rw [hk, threshold]
      · rfl
    refine ⟨fun k => by rw [hth]; exact hT k, fun h hs => by rw [hth]; exact hbelow h hs, fun hs k => ?_, hfree⟩
    rw [State.updEngine_engine]
    split
    · exact activity hs (hidle hs g)
    · exact hidle hs k
  queues h := by
    intro k
    rw [State.updEngine_engine]
    split
    · exact queue (h g)
    · exact h k
  resolutions h := by
    intro k
    rw [State.updEngine_engine]
    split
    · exact resolution (h g)
    · exact h k
  watched p h := by simpa [State.watchedAt] using h
  seeding := id
  drained h := by
    intro hq
    obtain ⟨slots, queues⟩ := h hq
    refine ⟨fun p i => by rw [State.updEngine_slot]; exact slots p i, fun k => ?_⟩
    rw [State.updEngine_engine]
    split
    · exact drained hq slots (queues g)
    · exact queues k

/-- An engine is written outside its settings, queue, resolution list and activity. -/
theorem State.Keeps.updEngine_same {s : State} {g : Seg} {f : Engine → Engine} (settings : ∀ e, (f e).settings.threshold = e.settings.threshold)
    (queue : ∀ e, (f e).queue = e.queue) (resolution : ∀ e, (f e).resolution = e.resolution)
    (activity : ∀ e, e.activity = none → (f e).activity = none) : s.Keeps (s.updEngine g f) :=
  .updEngine (settings _) (by rw [queue]; exact id) (by rw [queue]; exact fun _ _ => id) (by rw [resolution]; exact id)
    fun _ => activity _

theorem State.Keeps.setMap (s : State) (g : Seg) (a : Byte) (m : MapSlot) : s.Keeps (s.setMap g a m) where
  pending := by simp
  generations h := by simpa [State.generationsRun] using h
  bare h := by simpa [State.freeEntriesBare] using h
  counts h := by simpa [State.countsInRange] using h
  ages h := by simpa [State.agesWhileAbsent] using h
  identities h := by simpa [State.identitiesDiffer] using h
  silences h := by simpa [State.silencesBelowThreshold] using h
  queues h := by simpa [State.queuesBounded] using h
  resolutions h := by simpa [State.resolutionsDistinct] using h
  watched p h := by simpa [State.watchedAt] using h
  seeding h := by simpa [State.seedingInRun] using h
  drained h := by simpa [State.quietDrained] using h

/-- The run state goes from QUIETING or QUIET to RUN. -/
theorem State.Keeps.wake (s : State) : s.Keeps s.wake where
  pending := by simp
  generations h := by simpa [State.generationsRun] using h
  bare h := by simpa [State.freeEntriesBare] using h
  counts h := by simpa [State.countsInRange] using h
  ages h := by simpa [State.agesWhileAbsent] using h
  identities h := by simpa [State.identitiesDiffer] using h
  silences h := by
    obtain ⟨hT, hbelow, hidle, hfree⟩ := h
    refine ⟨by simpa using hT, by simpa using hbelow, by simpa using hidle, fun hl => ?_⟩
    have : s.runState = .starting .loading := by
      cases hs : s.runState <;> simp_all [RunState.woken]
    simpa using hfree this
  queues h := by simpa [State.queuesBounded] using h
  resolutions h := by simpa [State.resolutionsDistinct] using h
  watched p h := by simpa [State.watchedAt] using h
  seeding h := by
    intro hs
    rw [State.wake_seeding] at hs
    rcases h hs with hr | hr <;> cases hr' : s.runState <;> simp_all [RunState.woken, RunState.isSettling]
  drained h := by
    intro hq
    cases hr : s.runState <;> simp_all [RunState.woken]

/-- A flag of both notice units is set. -/
theorem State.Keeps.raise (s : State) (n : Notice) : s.Keeps (s.raise n) := by
  have one (t : State) (p : PortId) : t.Keeps (t.raiseAt p n) := by
    have flag : t.Keeps (t.updPort p fun x => { x with notices := { x.notices with sticky := x.notices.sticky ||| n.mask } }) :=
      .setPort (fun _ => .inl) fun _ => id
    unfold State.raiseAt
    dsimp only
    split
    · exact flag.trans (.wake _)
    · exact flag
  exact (one s .a).trans (one _ .b)

/-! ### Entries -/

/-- What the writing of one entry needs, whether it is filled or not. -/
theorem State.Keeps.setEntry_of {s : State} {h : Handle} {e : Entry}
    (generation : (s.entry h).generation ≠ 0 → e.generation ≠ 0)
    (bare : (s.entry h).bare → e.bare) (counts : (s.entry h).countsInRange → e.countsInRange)
    (age : (s.entry h).ageIdle → e.ageIdle)
    (below : (∀ g, 1 ≤ s.threshold g) → (s.entry h).below s.threshold → e.below s.threshold)
    (identity : s.identitiesDiffer → e.isFree = false → ∀ k, k ≠ h → (s.entry k).isFree = false → (s.entry k).identity ≠ e.identity)
    (loading : (s.runState.isStarting = true → ∀ g, (s.engine g).activity = none) → s.runState = .starting .loading →
      (s.entry h).state = .free → e.state = .free)
    (watch : ∀ p : PortId, (s.port p).notices.changed[h] = true → (s.entry h).watches p = true → e.watches p = true) :
    s.Keeps (s.setEntry h e) where
  pending := rfl
  generations hs := by
    intro k; rw [State.setEntry_entry]; split
    · exact generation (hs h)
    · exact hs k
  bare hs := by
    intro k; rw [State.setEntry_entry]; split
    · exact bare (hs h)
    · exact hs k
  counts hs := by
    intro k; rw [State.setEntry_entry]; split
    · exact counts (hs h)
    · exact hs k
  ages hs := by
    intro k; rw [State.setEntry_entry]; split
    · exact age (hs h)
    · exact hs k
  identities hs := by
    intro j k
    rw [State.setEntry_entry, State.setEntry_entry]
    split <;> split <;> intro hj hk hi
    · simp_all
    · rename_i _ hk'; exact absurd hi.symm (identity hs hj k hk' hk)
    · rename_i hj' _; exact absurd hi (identity hs hk j hj' hj)
    · exact hs j k hj hk hi
  silences hs := by
    obtain ⟨hT, hbelow, hidle, hfree⟩ := hs
    refine ⟨by simpa using hT, fun k => ?_, by simpa using hidle, fun hl k => ?_⟩
    · rw [State.setEntry_entry]; split
      · exact below (fun g => (hT g).1) (hbelow h)
      · simpa using hbelow k
    · rw [State.setEntry_entry]; split
      · exact loading hidle hl (hfree hl h)
      · exact hfree hl k
  queues hs := by simpa [State.queuesBounded] using hs
  resolutions hs := by simpa [State.resolutionsDistinct] using hs
  watched p hs := by
    intro k hk
    rw [State.setEntry_port] at hk
    rw [State.setEntry_entry]; split
    · rename_i e; subst e; exact watch p hk (hs k hk)
    · exact hs k hk
  seeding := id
  drained hs := by
    intro hq
    obtain ⟨slots, queues⟩ := hs hq
    exact ⟨by simpa using slots, by simpa using queues⟩

/-- The conditions of `setEntry_of` that an event which fills no entry meets. -/
theorem State.Keeps.setEntry {s : State} {h : Handle} {e : Entry} (keeps : (s.entry h).Keeps s.threshold e)
    (generation : (s.entry h).generation ≠ 0 → e.generation ≠ 0)
    (watch : ∀ p : PortId, (s.port p).notices.changed[h] = true → (s.entry h).watches p = true → e.watches p = true) :
    s.Keeps (s.setEntry h e) :=
  .setEntry_of generation keeps.bare keeps.counts keeps.age keeps.below
    (fun differ he k hk held hi => by
      obtain ⟨hh, hid⟩ := keeps.identity he
      exact hk (differ k h held hh (hi.trans hid)))
    (fun _ _ free => by
      by_contra held
      exact (Entry.isFree_false_iff _).1 (keeps.identity ((Entry.isFree_false_iff _).2 held)).1 free)
    watch

/-- A handle joins the change sets of the ports that watch it. -/
theorem State.Keeps.handOver (s : State) (h : Handle) : s.Keeps (s.handOver h) := by
  have one (t : State) (p : PortId) (hw : (t.entry h).watches p = true) : t.Keeps (t.handTo p h) := by
    have told : t.Keeps (t.setPort p ((t.port p).handed true h)) := by
      refine .setPort (fun k hk => ?_) fun _ => id
      by_cases hkh : k = h
      · exact .inr (hkh ▸ hw)
      · have hv : h.val ≠ k.val := fun x => hkh (Fin.ext x.symm)
        exact .inl (by simpa [PortState.handed, NoticeUnit.handed, hv] using hk)
    unfold State.handTo
    dsimp only
    split
    · exact told.trans (.wake _)
    · exact told
  unfold State.handOver
  dsimp only
  have ha : s.Keeps (if (s.entry h).watches .a then s.handTo .a h else s) := by
    split
    · exact one s .a (by assumption)
    · exact .refl s
  split
  · refine ha.trans (one _ .b ?_)
    split
    · rename_i hb _
      simpa [State.handTo_eq, State.entry] using hb
    · assumption
  · exact ha

/-- A directory event that fills no entry. -/
theorem State.Keeps.change {s : State} {h : Handle} {e : Entry} (keeps : (s.entry h).Keeps s.threshold e)
    (wa : e.watchA = (s.entry h).watchA) (wb : e.watchB = (s.entry h).watchB) : s.Keeps (s.change h e) := by
  have watch (p : PortId) (hw : (s.entry h).watches p = true) : e.watches p = true := by
    cases p <;> simp_all [Entry.watches]
  unfold State.change
  split
  · have moves : (s.entry h).generation ≠ 0 → nextGeneration (s.entry h).generation ≠ 0 := fun _ => by
      simp only [nextGeneration]
      split
      · decide
      · bv_omega
    exact (State.Keeps.setEntry (keeps.withGeneration _) moves fun p _ => watch p).trans (.handOver _ h)
  · exact .setEntry (keeps.withGeneration _) id fun p _ => watch p

end Sys2Proof.Machine
end

section
/-! PROOFS. What the shared events of the engines keep: an entry returned, an activity or a pass ended, a request finished, FAULT. -/

namespace Sys2Proof.Machine

/-! ### Entry changes of several activities -/

/-- A change of an entry that holds a node, to contents that hold it too and keep its stride. -/
theorem Entry.Keeps.held {T : Seg → Nat} {e f : Entry} (held : e.state ≠ .free) (taken : f.state ≠ .free)
    (identity : f.identity = e.identity) (stride : f.stride = e.stride) (silence : e.silence ≤ 7 → f.silence ≤ 7)
    (age : f.age = 0 ∨ (f.age = e.age ∧ (f.state.keepsAge = false → e.state.keepsAge = false)))
    (below : (∀ g, 1 ≤ T g) → e.below T → f.below T) : e.Keeps T f where
  bare _ hf := absurd hf taken
  identity _ := ⟨(Entry.isFree_false_iff e).2 held, identity⟩
  counts hc := by
    obtain ⟨hs, ha, hst⟩ := hc
    refine ⟨silence hs, ?_, by rw [stride]; exact hst⟩
    rcases age with h | ⟨h, -⟩ <;> omega
  age ha hk := by
    rcases age with h | ⟨h, hi⟩
    · exact h
    · rw [h]; exact ha (hi hk)
  below := below

theorem Entry.below_zero {T : Seg → Nat} {f : Entry} (h : f.silence = 0) (hT : ∀ g, 1 ≤ T g) : f.below T := by
  intro _; rw [h]; exact hT _

theorem Entry.below_of_state {T : Seg → Nat} {f : Entry} (h : f.state ≠ .seeded) (h' : f.state ≠ .present) : f.below T :=
  fun hs => (hs.elim h h').elim

theorem moreSilence_le (n : Nat) : moreSilence n ≤ 7 := Nat.min_le_right _ _

theorem State.Keeps.makeAbsent {s : State} {h : Handle} {n : Nat} (held : (s.entry h).state ≠ .free)
    (le : (s.entry h).silence ≤ 7 → n ≤ 7) : s.Keeps (s.makeAbsent h n) := by
  have keeps : (s.entry h).Keeps s.threshold { s.entry h with state := .absent, age := 0, silence := n } :=
    .held held (by simp) rfl rfl le (.inl rfl) fun _ _ => Entry.below_of_state (by simp) (by simp)
  exact (State.Keeps.change keeps rfl rfl).trans (.raise _ .absent)

theorem State.Keeps.restore {s : State} {h : Handle} (p : Prior) {n : Nat} (held : (s.entry h).state ≠ .free)
    (le : (s.entry h).silence ≤ 7 → n ≤ 7) : s.Keeps (s.restore h p n) := by
  have back (below : n < s.threshold (s.entry h).segment) :
      s.Keeps (s.change h { s.entry h with state := priorState p, silence := n, age := 0 }) :=
    .change (.held held (by cases p <;> simp [priorState]) rfl rfl le (.inl rfl) fun _ _ _ => below) rfl rfl
  cases p
  case absent =>
    exact .change (.held held (by simp) rfl rfl le (.inr ⟨rfl, by simp [EntryState.keepsAge]⟩)
      fun _ _ => Entry.below_of_state (by simp) (by simp)) rfl rfl
  case conflict =>
    exact .change (.held held (by simp) rfl rfl le (.inl rfl) fun _ _ => Entry.below_of_state (by simp) (by simp)) rfl rfl
  case seeded | present =>
    unfold State.restore
    dsimp only
    split
    · exact .makeAbsent held le
    · exact back (by omega)

theorem State.Keeps.returnEntry (s : State) (h : Handle) : s.Keeps (s.returnEntry h) := by
  unfold State.returnEntry
  split
  · rename_i hs
    exact (State.Keeps.setMap ..).trans (.restore _ (by simp [hs]) (by simp))
  · rename_i hs
    exact .restore _ (by simp [hs]) id
  all_goals exact .refl s

theorem State.Keeps.appendResolution (s : State) (g : Seg) (h : Handle) : s.Keeps (s.appendResolution g h) := by
  by_cases listed : h ∈ (s.engine g).resolution
  · rw [State.appendResolution_of_mem s g h listed]
    exact .refl s
  · rw [State.appendResolution_eq s g h listed]
    refine .updEngine rfl id (fun _ _ => id) (fun distinct => ?_) fun _ => id
    exact List.nodup_append.2 ⟨distinct, List.nodup_singleton h, by rintro a ha b hb rfl; simp_all⟩

theorem State.Keeps.dropResolution (s : State) (g : Seg) (h : Handle) : s.Keeps (s.dropResolution g h) :=
  .updEngine rfl id (fun _ _ => id) (fun n => n.filter _) fun _ => id

theorem State.Keeps.makeConflict {s : State} (g : Seg) {h : Handle} (held : (s.entry h).state ≠ .free) :
    s.Keeps (s.makeConflict g h) := by
  have keeps : (s.entry h).Keeps s.threshold { s.entry h with state := .conflict, age := 0 } :=
    .held held (by simp) rfl rfl id (.inl rfl) fun _ _ => Entry.below_of_state (by simp) (by simp)
  exact ((State.Keeps.change keeps rfl rfl).trans (.appendResolution _ g h)).trans (.raise _ .conflict)

theorem Entry.Keeps.freed {T : Seg → Nat} (e : Entry) : e.Keeps T e.freed where
  bare _ _ := rfl
  identity hf := by simp [Entry.freed, freeEntry, Entry.isFree] at hf
  counts _ := by simp [Entry.freed, freeEntry, Entry.countsInRange]
  age _ _ := rfl
  below _ _ := Entry.below_of_state (by simp [Entry.freed, freeEntry]) (by simp [Entry.freed, freeEntry])

theorem State.Keeps.freeRetired (s : State) (h : Handle) : s.Keeps (s.freeRetired h) :=
  ((State.Keeps.setMap ..).trans (.change (by simpa using Entry.Keeps.freed (s.entry h)) (by simp [Entry.freed, freeEntry])
    (by simp [Entry.freed, freeEntry]))).trans (.raise _ _)

/-- The silence of an entry that holds a node becomes 0, or at most 7 out of SEEDED and PRESENT. -/
theorem State.Keeps.setSilence {s : State} {h : Handle} {n : Nat} (held : (s.entry h).state ≠ .free) (le : n ≤ 7)
    (below : (s.entry h).state = .seeded ∨ (s.entry h).state = .present → 1 ≤ s.threshold (s.entry h).segment →
      n < s.threshold (s.entry h).segment) : s.Keeps (s.setSilence h n) :=
  .setEntry (.held held held rfl rfl (fun _ => le) (.inr ⟨rfl, id⟩) fun hT _ hs => below hs (hT _)) id
    (fun p _ hw => by cases p <;> exact hw)

theorem State.Keeps.clearSilence {s : State} {h : Handle} (held : (s.entry h).state ≠ .free) : s.Keeps (s.setSilence h 0) :=
  .setSilence held (by decide) fun _ => id

theorem State.Keeps.countSilence {s : State} {h : Handle} (held : (s.entry h).state ≠ .free) : s.Keeps (s.countSilence h) := by
  unfold State.countSilence
  dsimp only
  split
  · exact .makeAbsent held fun _ => moreSilence_le _
  · exact .setSilence held (moreSilence_le _) fun _ _ => by omega

theorem State.Keeps.confirm {s : State} {h : Handle} (held : (s.entry h).state ≠ .free) : s.Keeps (s.confirm h) :=
  .change (.held held (by simp) rfl rfl (fun _ => Nat.zero_le _) (.inl rfl) fun hT _ => Entry.below_zero rfl hT) rfl rfl

/-! ### Answers and passes -/

/-- Answering makes no slot busy. -/
theorem PortState.finish_busy (x : PortState) (i j : SlotIx) (a : Answer) (h : (x.finish i a).slots[j].isBusy = true) :
    x.slots[j].isBusy = true := by
  unfold PortState.finish at h
  split at h
  · by_cases hij : i.val = j.val
    · simp [hij, Slot.isBusy] at h
    · simpa [hij] using h
  · exact h

theorem PortState.finish_notices (x : PortState) (i : SlotIx) (a : Answer) : (x.finish i a).notices = x.notices := by
  unfold PortState.finish; split <;> rfl

theorem State.Keeps.finish (s : State) (p : PortId) (i : SlotIx) (a : Answer) : s.Keeps (s.finish p i a) :=
  .setPort_lists (PortState.finish_notices ..) fun j => PortState.finish_busy _ i j a

theorem State.Keeps.finishOwner (s : State) (o : Option Owner) (a : Answer) : s.Keeps (s.finishOwner o a) := by
  unfold State.finishOwner
  split
  · exact .finish ..
  all_goals exact .refl s

theorem State.Keeps.answerAll (s : State) (a : Answer) (l : List (PortId × SlotIx)) : s.Keeps (s.answerAll a l) := by
  induction l generalizing s with
  | nil => exact .refl s
  | cons x l ih => exact (State.Keeps.finish ..).trans (ih _)

theorem State.Keeps.updPass (s : State) (g : Seg) (f : PassRecord → PassRecord) : s.Keeps (s.updPass g f) :=
  .updEngine_same (fun _ => rfl) (fun _ => rfl) (fun _ => rfl) fun _ => id

theorem State.Keeps.updLine (s : State) (g : Seg) (f : Line → Line) : s.Keeps (s.updLine g f) :=
  .updEngine_same (fun _ => rfl) (fun _ => rfl) (fun _ => rfl) fun _ => id

theorem State.Keeps.endPass (s : State) (g : Seg) (r : EndReason) : s.Keeps (s.endPass g r) := by
  unfold State.endPass
  dsimp only
  split
  · exact (State.Keeps.updPass ..).trans (.answerAll ..)
  · exact .refl s

/-! ### Activities -/

/-- An engine takes up an activity out of STARTING. -/
theorem State.Keeps.begin {s : State} (g : Seg) (st : EngineState) (w : Work) (o : Option Owner)
    (out : s.runState.isStarting = false) : s.Keeps (s.begin g st w o) :=
  .updEngine rfl id (fun _ _ => id) id fun h => by simp [out] at h

/-- An engine with an activity goes on to its next step. -/
theorem State.Keeps.stepTo {s : State} {g : Seg} (a : Activity) (w : Work) (active : (s.engine g).activity ≠ none) :
    s.Keeps (s.stepTo g a w) :=
  .updEngine rfl id (fun _ _ => id) id fun _ h => (active h).elim

theorem State.Keeps.retry {s : State} {g : Seg} (a : Activity) (active : (s.engine g).activity ≠ none) :
    s.Keeps (s.retry g a) :=
  .updEngine rfl id (fun _ _ => id) id fun _ h => (active h).elim

theorem State.Keeps.cleared (s : State) (g : Seg) : s.Keeps (s.updEngine g Engine.cleared) :=
  .updEngine_same (fun _ => rfl) (fun _ => rfl) (fun _ => rfl) fun _ _ => rfl

theorem State.Keeps.endActivity (s : State) (g : Seg) : s.Keeps (s.endActivity g) := by
  have after : s.Keeps (s.updEngine g Engine.afterActivity) :=
    .updEngine_same (fun _ => by rw [Engine.afterActivity_eq]) (fun _ => by rw [Engine.afterActivity_eq])
      (fun _ => by rw [Engine.afterActivity_eq]) fun _ _ => by rw [Engine.afterActivity_eq]
  unfold State.endActivity
  dsimp only
  split
  · exact after
  · exact after.trans (.endPass ..)

theorem State.Keeps.endContest (s : State) (g : Seg) : s.Keeps (s.endContest g) := by
  unfold State.endContest
  dsimp only
  split
  · exact (State.Keeps.endPass ..).trans (.endActivity ..)
  · exact .endActivity ..

theorem State.Keeps.stuckEffect (s : State) (g : Seg) (w : Work) : s.Keeps (s.stuckEffect g w) := by
  unfold State.stuckEffect
  split
  case h_1 | h_2 => exact .returnEntry ..
  case h_6 | h_7 => exact (State.Keeps.setMap ..).trans (.updPass ..)
  case h_3 | h_4 | h_5 => exact .updPass ..
  all_goals exact .refl s

/-! ### Queues -/

theorem State.Keeps.returnItems (s : State) (xs : List QueueItem) : s.Keeps (s.returnItems xs) := by
  unfold State.returnItems
  induction xs generalizing s with
  | nil => exact .refl s
  | cons x xs ih =>
    refine State.Keeps.trans ?_ (ih _)
    unfold State.returnItem
    (repeat' split) <;> first | exact .returnEntry .. | exact .refl s

theorem State.Keeps.answerItems (s : State) (c : Status) (r : EndReason) (xs : List QueueItem) :
    s.Keeps (s.answerItems c r xs) := by
  unfold State.answerItems
  induction xs generalizing s with
  | nil => exact .refl s
  | cons x xs ih => exact (State.Keeps.finish ..).trans (ih _)

theorem State.Keeps.finishWaiting (s : State) (g : Seg) (c : Status) (p : PortId) : s.Keeps (s.finishWaiting g c p) := by
  unfold State.finishWaiting
  split
  · exact .finish ..
  · exact .refl s

theorem State.Keeps.flushQueue (s : State) (g : Seg) (c : Status) (r : EndReason) {f : State → State}
    (hf : ∀ t : State, t.Keeps (f t)) : s.Keeps (s.flushQueue g c r f) := by
  have empty : s.Keeps (s.updEngine g fun e => { e with queue := [] }) :=
    .updEngine rfl (fun _ => Nat.zero_le _) (fun _ _ _ => rfl) id fun _ => id
  exact ((((empty.trans (.returnItems ..)).trans (hf _)).trans (.answerItems ..)).trans (.finishWaiting ..)).trans
    (.finishWaiting ..)

theorem State.Keeps.enterFault (s : State) (g : Seg) (a : Activity) : s.Keeps (s.enterFault g a) := by
  have answer (t : State) : t.Keeps (State.answerStuck a t) := .finishOwner ..
  have marks (t : State) : t.Keeps (t.updEngine g fun e =>
      { e with state := .fault, pollDue := false, discoveryDue := false, tookQueue := false }) :=
    .updEngine_same (fun _ => rfl) (fun _ => rfl) (fun _ => rfl) fun _ => id
  exact (((((State.Keeps.cleared s g).trans (.stuckEffect ..)).trans (.flushQueue _ _ _ _ answer)).trans (.endPass ..)).trans
    (marks _)).trans (.raise ..)

end Sys2Proof.Machine
end

section
/-! PROOFS. What the outcomes of activities and the line events keep. -/

namespace Sys2Proof.Machine

/-! ### Filling a FREE entry -/

theorem State.holder_eq_none_iff (s : State) (w : Ident) :
    s.holder w = none ↔ ∀ h : Handle, (s.entry h).isFree = false → (s.entry h).identity ≠ w := by
  simp [State.holder, allHandles, List.find?_eq_none]

theorem State.holder_eq_some {s : State} {w : Ident} {h : Handle} (hh : s.holder w = some h) :
    (s.entry h).isFree = false ∧ (s.entry h).identity = w := by
  have := List.find?_some hh
  simpa using this

theorem nextGeneration_ne_zero (g : Byte) : nextGeneration g ≠ 0 ∨ g = 0 := by
  unfold nextGeneration
  split
  · exact .inl (by decide)
  · bv_omega

/-- A FREE entry is filled SEEDED or PRESENT with an identity that no entry holds, out of STARTING or by an activity (R13, R131,
R201). -/
theorem State.Keeps.fill {s : State} {h : Handle} {st : EntryState} {w : Ident} {c : Byte} {g : Seg} {a : Byte}
    {l : Option (BitVec 16)} (state : st = .seeded ∨ st = .present) (unheld : s.holder w = none)
    (live : s.runState.isStarting = true → ∃ k, (s.engine k).activity ≠ none) :
    s.Keeps (s.change h ((s.entry h).filled st w c g a l)) := by
  have write (gen : Byte) (hg : (s.entry h).generation ≠ 0 → gen ≠ 0) :
      s.Keeps (s.setEntry h { (s.entry h).filled st w c g a l with generation := gen }) := by
    refine .setEntry_of hg (fun _ hf => ?bare) (fun _ => ?counts) (fun _ _ => rfl) (fun hT _ => Entry.below_zero rfl hT)
      (fun _ _ k _ held => (s.holder_eq_none_iff w).1 unheld k held) (fun idle hl _ => ?loading) (fun p _ hw => ?watch)
    case bare => rcases state with rfl | rfl <;> simp [Entry.filled] at hf
    case counts => simp [Entry.filled, freeEntry, Entry.countsInRange]
    case loading =>
      obtain ⟨k, hk⟩ := live (by rw [hl]; rfl)
      exact absurd (idle (by rw [hl]; rfl) k) hk
    case watch => cases p <;> exact hw
  unfold State.change
  split
  · exact (write _ fun hg => (nextGeneration_ne_zero _).resolve_right hg).trans (.handOver _ h)
  · exact write _ id

/-! ### Final outcomes -/

theorem State.Keeps.endMove {s : State} (h : Handle) {f : State → State}
    (hf : ∀ t : State, (t.entry h).state ≠ .free → t.Keeps (f t)) : s.Keeps (s.endMove h f) := by
  unfold State.endMove
  split
  · rename_i hs
    exact (State.Keeps.setMap ..).trans (hf _ (by simp [hs]))
  all_goals exact .refl s

theorem State.Keeps.completeMove (s : State) (h : Handle) : s.Keeps (s.completeMove h) := by
  unfold State.completeMove
  split
  · rename_i t hs
    refine ((State.Keeps.setMap ..).trans (.setMap ..)).trans (.change ?_ (by simp) (by simp))
    rw [State.setMap_entry, State.setMap_entry]
    exact .held (by simp [hs]) (by simp) rfl rfl (fun _ => Nat.zero_le _) (.inl rfl) fun hT _ => Entry.below_zero rfl hT
  all_goals exact .refl s

theorem State.Keeps.finishMove (t : State) (g : Seg) (a : Activity) (h : Handle) (st : Status) (code : Byte) (step : MoveStep) :
    t.Keeps (t.finishMove g a h st code step) := (State.Keeps.finishOwner ..).trans (.endActivity ..)

theorem State.Keeps.moveOutcome {s : State} {g : Seg} (a : Activity) (step : MoveStep) (h : Handle) (addr target : Byte)
    (x : Ident) (o : LineOutcome) (active : (s.engine g).activity ≠ none) :
    s.Keeps (s.moveOutcome g a step h addr target x o) := by
  have go (n : MoveStep) : s.Keeps (s.stepTo g a (.move n h addr target x)) := .stepTo _ _ active
  have disputed := State.Keeps.endMove (s := s) h fun t held => .makeConflict g (s := t) held
  have confirmed := State.Keeps.endMove (s := s) h fun t held => .confirm (s := t) held
  have silent := State.Keeps.endMove (s := s) h fun t held => .makeAbsent (s := t) (n := (t.entry h).silence) held id
  have back := State.Keeps.returnEntry s h
  cases step
  case one =>
    cases o
    case accept => exact go .two
    case refuse => exact confirmed.trans (.finishMove ..)
    case noReply | framing => exact go .three
    case collision => exact disputed.trans (.finishMove ..)
    all_goals exact back.trans (.finishMove ..)
  case two =>
    cases o
    case accept => exact .ite (fun _ => (State.Keeps.completeMove s h).trans (.finishMove ..)) fun _ => go .stray
    case collision => exact go .stray
    all_goals exact go .three
  case stray => exact go .three
  case three =>
    cases o
    case accept => exact .ite (fun _ => confirmed.trans (.finishMove ..)) fun _ => disputed.trans (.finishMove ..)
    case noReply | framing => exact silent.trans (.finishMove ..)
    case collision => exact disputed.trans (.finishMove ..)
    all_goals exact back.trans (.finishMove ..)

theorem State.Keeps.retireEffect (s : State) (g : Seg) (h : Handle) (force : Bool) (o : LineOutcome) :
    s.Keeps (s.retireEffect g h force o) := by
  unfold State.retireEffect
  split
  · rename_i pr _ hs
    have held : (s.entry h).state ≠ .free := by simp [hs]
    split
    · exact .freeRetired ..
    · split
      · exact .freeRetired ..
      · exact .restore pr held fun _ => Nat.zero_le _
      · exact .restore pr held fun _ => moreSilence_le _
      · exact .restore pr held fun _ => moreSilence_le _
      · exact .makeConflict g held
      all_goals exact .restore pr held id
  all_goals exact .refl s

theorem State.isStill_held {s : State} {h : Handle} {x : Ident} {g : Seg} (still : s.isStill h x g = true) :
    (s.entry h).state ≠ .free := by
  simp only [State.isStill, Bool.and_eq_true, Bool.not_eq_true'] at still
  exact (Entry.isFree_false_iff _).1 still.1.1

theorem State.Keeps.hostOutcome (s : State) (g : Seg) (h : Handle) (x : Ident) (sg : Seg) (o : LineOutcome) :
    s.Keeps (s.hostOutcome g h x sg o) := by
  unfold State.hostOutcome
  split
  · rename_i still
    have held := State.isStill_held still
    cases o <;> dsimp only
    case accept | refuse => exact .clearSilence held
    case noReply | framing =>
      split
      · exact .countSilence held
      · exact .countSilence held
      · exact .setSilence held (moreSilence_le _) (by simp [*])
      · exact .setSilence held (moreSilence_le _) (by simp [*])
      all_goals exact .refl s
    case collision =>
      split
      case h_1 | h_2 | h_3 => exact .makeConflict g held
      case h_4 => exact .appendResolution ..
      all_goals exact .refl s
    all_goals exact .refl s
  · exact .refl s

theorem State.Keeps.ageAbsent {s : State} {h : Handle} (absent : (s.entry h).state = .absent) : s.Keeps (s.ageAbsent h) := by
  have older : s.Keeps (s.setEntry h
      { s.entry h with silence := moreSilence (s.entry h).silence, age := moreAge (s.entry h).age }) := by
    refine .setEntry_of id (fun _ hf => ?_) (fun hc => ?_) (fun _ hk => ?_) (fun _ _ => ?_) ?_ ?_ (fun p _ hw => ?_)
    · simp [absent] at hf
    · exact ⟨moreSilence_le _, Nat.min_le_right _ _, hc.2.2⟩
    · simp [absent, EntryState.keepsAge] at hk
    · exact Entry.below_of_state (by simp [absent]) (by simp [absent])
    · intro differ _ k hk held hi
      exact hk (differ k h held ((Entry.isFree_false_iff _).2 (by simp [absent])) hi)
    · intro _ _ free; simp [absent] at free
    · cases p <;> exact hw
  unfold State.ageAbsent
  dsimp only
  split
  · exact older.trans (.freeRetired ..)
  · exact older

theorem State.Keeps.pollOutcome (s : State) (g : Seg) (h : Handle) (x : Ident) (sg : Seg) (o : LineOutcome) :
    s.Keeps (s.pollOutcome g h x sg o) := by
  unfold State.pollOutcome
  split
  · rename_i still
    have held := State.isStill_held still
    have confirmed : s.Keeps (s.confirm h) := .confirm held
    have disputed : s.Keeps (s.makeConflict g h) := .makeConflict g held
    split
    case h_1 | h_2 | h_3 =>
      cases o <;> dsimp only
      case accept => split <;> assumption
      case collision => exact disputed
      case noReply | framing => first | exact .countSilence held | exact .ageAbsent (by assumption)
      all_goals exact .refl s
    case h_4 | h_5 =>
      split
      · exact .clearSilence held
      · exact .refl s
    all_goals exact .refl s
  · exact .refl s

theorem State.Keeps.resolutionOutcome (s : State) (g : Seg) (h : Handle) (x : Ident) (o : LineOutcome) :
    s.Keeps (s.resolutionOutcome g h x o) := by
  unfold State.resolutionOutcome
  refine State.Keeps.trans ?_ (.dropResolution ..)
  split
  · rename_i hs
    have held : (s.entry h).state ≠ .free := by simp [hs]
    cases o <;> dsimp only
    case accept =>
      split
      · exact .confirm held
      · exact .refl s
    case noReply => exact .makeAbsent held id
    all_goals exact .refl s
  · rename_i hs
    split
    · exact .clearSilence (by simp [hs])
    · exact .refl s
  all_goals exact .refl s

theorem State.Keeps.unparkOutcome (s : State) (g : Seg) (o : LineOutcome) : s.Keeps (s.unparkOutcome g o) := by
  unfold State.unparkOutcome
  refine State.Keeps.trans ?_ (.endActivity ..)
  split
  · exact .updEngine_same (fun _ => rfl) (fun _ => rfl) (fun _ => rfl) fun _ => id
  · exact .refl s

/-! ### Contests and joins -/

theorem State.Keeps.contestLost (s : State) (g : Seg) : s.Keeps (s.contestLost g) :=
  (State.Keeps.updPass ..).trans (.endContest ..)

theorem State.Keeps.noContender (s : State) (g : Seg) : s.Keeps (s.noContender g) := by
  unfold State.noContender
  dsimp only
  refine ((State.Keeps.updPass s g PassRecord.countContest).trans ?_).trans (.endActivity ..)
  split
  · exact .endPass ..
  · exact .refl _

theorem State.Keeps.contestWon {s : State} {g : Seg} (a : Activity) (w : Ident) (c : Byte)
    (active : (s.engine g).activity ≠ none) : s.Keeps (s.contestWon g a w c) := by
  have counted : s.Keeps (s.updPass g PassRecord.countContest) := .updPass ..
  have still : ((s.updPass g PassRecord.countContest).engine g).activity ≠ none := by simpa [State.updPass_eq] using active
  unfold State.contestWon
  dsimp only
  split
  case h_1 | h_2 => exact (counted.trans (.setMap ..)).trans (.stepTo _ _ (by simpa using still))
  case h_3 => exact counted.trans (.stepTo _ _ still)
  case h_4 => exact (counted.trans (.raise ..)).trans (.stepTo _ _ (by simpa using still))

theorem State.Keeps.parkOutcome (s : State) (g : Seg) (o : LineOutcome) : s.Keeps (s.parkOutcome g o) := by
  unfold State.parkOutcome
  refine State.Keeps.trans ?_ (.endContest ..)
  split
  · exact .updEngine_same (fun _ => rfl) (fun _ => rfl) (fun _ => rfl) fun _ => id
  · exact .updPass ..

theorem State.Keeps.applyJoin {s : State} {g : Seg} {h : Handle} {w : Ident} (c adr : Byte)
    (unheld : s.holder w = none) (active : (s.engine g).activity ≠ none) : s.Keeps (s.applyJoin g h w c adr) := by
  have filled : (s.setMap g adr (.held h)).Keeps
      ((s.setMap g adr (.held h)).change h ((s.entry h).filled .present w c g adr none)) := by
    have := State.Keeps.fill (s := s.setMap g adr (.held h)) (h := h) (w := w) (c := c) (g := g) (a := adr) (l := none)
      (.inr rfl) (by simpa [State.holder] using unheld) fun _ => ⟨g, by simpa using active⟩
    simpa using this
  exact ((((State.Keeps.setMap ..).trans filled).trans (.raise ..)).trans (.updPass ..)).trans (.endContest ..)

theorem State.Keeps.applyTransfer {s : State} (g : Seg) {h : Handle} (c adr : Byte) (held : (s.entry h).state ≠ .free) :
    s.Keeps (s.applyTransfer g h c adr) := by
  have keeps (e : Entry) (he : e = { s.entry h with segment := g, address := adr, state := .present, silence := 0, age := 0, cls := c })
      (T : Seg → Nat) : (s.entry h).Keeps T e := by
    subst he
    exact .held held (by simp) rfl rfl (fun _ => Nat.zero_le _) (.inl rfl) fun hT _ => Entry.below_zero rfl hT
  unfold State.applyTransfer
  dsimp only
  refine ((((State.Keeps.setMap ..).trans (.setMap ..)).trans (.change ?_ (by simp) (by simp))).trans (.raise ..)).trans
    ((State.Keeps.updPass ..).trans (.endContest ..))
  rw [State.setMap_entry, State.setMap_entry]
  exact keeps _ rfl _

theorem State.Keeps.applyRejoin (s : State) (g : Seg) (h : Handle) (w : Ident) (c adr : Byte) :
    s.Keeps (s.applyRejoin g h w c adr) := by
  have counted (t : State) : t.Keeps ((t.updPass g fun x => { x with rejoined := x.rejoined + 1 }).endContest g) :=
    (State.Keeps.updPass ..).trans (.endContest ..)
  have lost : s.Keeps ((s.updPass g PassRecord.countLost).endContest g) := (State.Keeps.updPass ..).trans (.endContest ..)
  unfold State.applyRejoin
  dsimp only
  split
  · rename_i still
    rw [Bool.and_eq_true] at still
    have held := State.isStill_held still.1
    have present : s.Keeps (s.change h { s.entry h with state := .present, silence := 0, age := 0, cls := c }) := by
      refine .change (.held held ?_ ?_ ?_ (fun _ => Nat.zero_le _) (.inl ?_) fun hT _ => Entry.below_zero ?_ hT) ?_ ?_ <;> simp
    have inHand : s.Keeps (s.change h { s.entry h with silence := 0, cls := c }) := by
      refine .change (.held held ?_ ?_ ?_ (fun _ => Nat.zero_le _) (.inr ⟨?_, id⟩) fun hT _ => Entry.below_zero ?_ hT) ?_ ?_
      · exact held
      all_goals simp
    split
    case h_1 | h_2 | h_3 => exact present.trans (counted _)
    case h_4 | h_5 => exact inHand.trans (counted _)
    all_goals exact lost
  · exact lost

theorem State.Keeps.parkAtReply {s : State} {g : Seg} (a : Activity) (n : Notice) (w : Ident) (adr : Byte)
    (active : (s.engine g).activity ≠ none) : s.Keeps (s.parkAtReply g a n w adr) :=
  ((State.Keeps.setMap ..).trans (.raise ..)).trans (.stepTo _ _ (by simpa using active))

theorem State.Keeps.freshDecision {s : State} {g : Seg} (a : Activity) (w : Ident) (c adr : Byte)
    (active : (s.engine g).activity ≠ none) : s.Keeps (s.freshDecision g a w c adr) := by
  unfold State.freshDecision
  split
  · rename_i unheld
    split
    · exact .applyJoin c adr unheld active
    · exact .parkAtReply a _ w adr active
  · rename_i h hh
    split
    case h_1 | h_2 => exact .applyTransfer g c adr ((Entry.isFree_false_iff _).1 (State.holder_eq_some hh).1)
    · exact .parkAtReply a _ w adr active

theorem State.Keeps.assignFailed (s : State) (g : Seg) (kind : JoinKind) (adr : Byte) : s.Keeps (s.assignFailed g kind adr) := by
  have lost (t : State) : t.Keeps ((t.updPass g PassRecord.countLost).endContest g) :=
    (State.Keeps.updPass ..).trans (.endContest ..)
  unfold State.assignFailed
  cases kind <;> dsimp only
  case rejoin => exact lost s
  all_goals exact (State.Keeps.setMap ..).trans (lost _)

theorem State.Keeps.assignOutcome {s : State} {g : Seg} (a : Activity) (kind : JoinKind) (w : Ident) (c adr : Byte)
    (o : LineOutcome) (active : (s.engine g).activity ≠ none) : s.Keeps (s.assignOutcome g a kind w c adr o) := by
  unfold State.assignOutcome
  split
  · cases kind
    case rejoin => exact .applyRejoin ..
    all_goals exact .freshDecision a w c adr active
  · exact .assignFailed ..

/-! ### The end of an attempt -/

theorem State.Keeps.finalOutcome {s : State} {g : Seg} (a : Activity) (o : LineOutcome) (active : (s.engine g).activity ≠ none) :
    s.Keeps (s.finalOutcome g a o) := by
  have transfer (h : Handle) (x : Ident) (sg : Seg) (reads : Bool) : s.Keeps (s.transferOutcome g a h x sg reads o) :=
    ((State.Keeps.hostOutcome ..).trans (.finishOwner ..)).trans (.endActivity ..)
  unfold State.finalOutcome
  split
  case h_1 | h_2 => exact transfer ..
  case h_3 => exact (State.Keeps.finishOwner ..).trans (.endActivity ..)
  case h_4 => exact (State.Keeps.pollOutcome ..).trans (.endActivity ..)
  case h_5 | h_12 => exact .stepTo _ _ active
  case h_6 => exact (State.Keeps.resolutionOutcome ..).trans (.endActivity ..)
  case h_7 => exact .moveOutcome _ _ _ _ _ _ _ active
  case h_8 => exact ((State.Keeps.retireEffect ..).trans (.finishOwner ..)).trans (.endActivity ..)
  case h_9 => exact .unparkOutcome ..
  case h_10 => exact .contestLost ..
  case h_11 => exact .assignOutcome _ _ _ _ _ _ active
  case h_13 => exact .parkOutcome ..

theorem State.Keeps.attemptEnds (s : State) (g : Seg) (o : LineOutcome) : s.Keeps (s.attemptEnds g o) := by
  have cleared : s.Keeps (s.updLine g fun l => { l with attempt := none }) := .updLine ..
  unfold State.attemptEnds
  dsimp only
  split
  · exact cleared
  · rename_i a ha
    have active : ((s.updLine g fun l => { l with attempt := none }).engine g).activity ≠ none := by simp [ha]
    refine cleared.trans ?_
    split
    · exact .enterFault ..
    · split
      · exact .retry _ active
      · exact .finalOutcome _ _ active

/-! ### The events of a line -/

theorem State.Keeps.updAttempt (s : State) (g : Seg) (f : Attempt → Attempt) : s.Keeps (s.updAttempt g f) := .updLine ..

theorem State.Keeps.phaseTo (s : State) (g : Seg) (ph : AttemptPhase) : s.Keeps (s.phaseTo g ph) := .updAttempt ..

theorem State.Keeps.clearAttempt (s : State) (g : Seg) : s.Keeps (s.clearAttempt g) := .updLine ..

theorem State.Keeps.idleGap (s : State) (g : Seg) (run : Nat) : s.Keeps (s.idleGap g run) := by
  unfold State.idleGap
  split
  · exact (State.Keeps.updLine ..).trans (.phaseTo ..)
  · exact .refl s

theorem State.Keeps.stuckLine (s : State) (g : Seg) (run : Nat) : s.Keeps (s.stuckLine g run) := by
  unfold State.stuckLine
  split
  · exact (State.Keeps.updLine ..).trans (.attemptEnds ..)
  · exact .refl s

theorem State.Keeps.contend (s : State) (g : Seg) (k : Nat) : s.Keeps (s.contend g k) := by
  unfold State.contend
  split
  · split
    · exact (State.Keeps.updLine ..).trans (.phaseTo ..)
    · exact .refl s
  · exact .refl s

theorem State.Keeps.releaseBreak (s : State) (g : Seg) (run : Nat) : s.Keeps (s.releaseBreak g run) := by
  have released : s.Keeps (s.updLine g (·.breakReleased run)) := .updLine ..
  unfold State.releaseBreak
  dsimp only
  split
  · split
    · exact released.trans (.attemptEnds ..)
    · exact released
  · exact .refl s

theorem State.Keeps.acknowledge (s : State) (g : Seg) (dominant : Bool) : s.Keeps (s.acknowledge g dominant) := by
  unfold State.acknowledge
  (repeat' split) <;> first | exact .phaseTo .. | exact .attemptEnds .. | exact .refl s

theorem State.Keeps.frameSent (s : State) (g : Seg) : s.Keeps (s.frameSent g) := by
  unfold State.frameSent
  split
  · refine .ite (fun _ => .ite (fun _ => ?_) fun _ => .ite (fun _ => ?_) fun _ => ?_) fun _ => ?_
    · exact .phaseTo ..
    · exact .phaseTo ..
    · exact .attemptEnds ..
    · exact .refl s
  · exact .refl s

theorem State.Keeps.replyTimeout (s : State) (g : Seg) (n : Nat) : s.Keeps (s.replyTimeout g n) := by
  unfold State.replyTimeout
  split
  · exact .attemptEnds ..
  · exact .refl s

theorem State.Keeps.gapTimeout (s : State) (g : Seg) (n : Nat) : s.Keeps (s.gapTimeout g n) := by
  unfold State.gapTimeout
  split
  · exact .attemptEnds ..
  · exact .refl s

theorem State.Keeps.replyChar (s : State) (g : Seg) (ch : LineChar) : s.Keeps (s.replyChar g ch) := by
  unfold State.replyChar
  split
  · split
    · (repeat' split) <;> first | exact .updAttempt .. | exact .attemptEnds ..
    · exact .refl s
  · exact .refl s

theorem State.Keeps.runEnds (s : State) (g : Seg) (run : Nat) : s.Keeps (s.runEnds g run) := by
  unfold State.runEnds
  split
  · exact (State.Keeps.updLine ..).trans (.attemptEnds ..)
  · exact .refl s

theorem State.Keeps.breakSeen (s : State) (g : Seg) (run : Nat) : s.Keeps (s.breakSeen g run) := by
  unfold State.breakSeen
  split
  · split
    · exact (State.Keeps.updLine ..).trans (.attemptEnds ..)
    · split
      · exact (State.Keeps.updLine ..).trans (.contestLost ..)
      · exact .refl s
  · exact .refl s

theorem State.Keeps.slotsEnd (s : State) (g : Seg) (read : Ident) : s.Keeps (s.slotsEnd g read) := by
  unfold State.slotsEnd
  split
  · split
    · exact (State.Keeps.clearAttempt ..).trans (.noContender ..)
    · split
      · exact (State.Keeps.clearAttempt ..).trans (.contestLost ..)
      · exact .updAttempt ..
  · exact .refl s

theorem State.Keeps.classChar (s : State) (g : Seg) (ch : LineChar) : s.Keeps (s.classChar g ch) := by
  unfold State.classChar
  split
  · rename_i ha
    split
    · split
      · exact (State.Keeps.clearAttempt ..).trans (.contestWon _ _ _ (by simp [State.clearAttempt, State.updLine_eq, ha]))
      · exact (State.Keeps.clearAttempt ..).trans (.contestLost ..)
    · exact .refl s
  · exact .refl s

theorem State.Keeps.classTimeout (s : State) (g : Seg) (n : Nat) : s.Keeps (s.classTimeout g n) := by
  unfold State.classTimeout
  split
  · exact (State.Keeps.clearAttempt ..).trans (.contestLost ..)
  · exact .refl s

end Sys2Proof.Machine
end

section
/-! PROOFS. What the checks of a line request establish, and what its admission keeps. -/

namespace Sys2Proof.Machine

/-! ### The checks of a request -/

theorem Entry.stateOf_checkNode {s : State} {b : Byte} {h : Handle} (ok : s.checkNode b = .ok h) :
    handleOf b = some h ∧ (s.entry h).state ≠ .free := by
  unfold State.checkNode at ok
  split at ok
  · cases ok
  · split at ok
    · cases ok
    · rename_i hf
      cases ok
      exact ⟨by assumption, fun e => hf ((Entry.isFree_iff _).2 e)⟩

/-- A computation that binds has a first value. -/
theorem Except.bind_eq_ok {ε α β : Type} {x : Except ε α} {f : α → Except ε β} {b : β} (ok : x >>= f = .ok b) :
    ∃ a, x = .ok a ∧ f a = .ok b := by
  cases x with
  | error e => cases ok
  | ok a => exact ⟨a, rfl, ok⟩

/-- The entry that passes the checks 1 to 3 is the one named, and holds a node. -/
theorem State.commonToPermit_ok {s : State} {p : PortId} {b : Byte} {h : Handle} (ok : s.commonToPermit p b = .ok h) :
    handleOf b = some h ∧ (s.entry h).state ≠ .free := by
  obtain ⟨k, hk, ok⟩ := Except.bind_eq_ok ok
  obtain ⟨_, _, ok⟩ := Except.bind_eq_ok ok
  cases ok
  exact Entry.stateOf_checkNode hk

/-- The entry that passes the checks 1 to 5 is the one named, and holds a node. -/
theorem State.commonAll_named {s : State} {p : PortId} {b x : Byte} {h : Handle} (ok : s.commonAll p b x = .ok h) :
    handleOf b = some h ∧ (s.entry h).state ≠ .free := by
  obtain ⟨k, hk, ok⟩ := Except.bind_eq_ok ok
  obtain ⟨_, _, ok⟩ := Except.bind_eq_ok ok
  obtain ⟨_, _, ok⟩ := Except.bind_eq_ok ok
  cases ok
  exact State.commonToPermit_ok hk

theorem State.laterChecks_ok {s : State} {h : Handle} {st cond own : Option Status} (ok : s.laterChecks h st cond own = .ok ()) :
    st = none ∧ cond = none ∧ own = none := by
  unfold State.laterChecks at ok
  split at ok
  · cases ok
  · rename_i hn
    cases st <;> cases cond <;> simp_all

/-- A MOVE that passes its checks names a PRESENT entry and a target that is EMPTY in the pool of its segment (R145). -/
theorem State.checkLine_move {s : State} {p : PortId} {b t x : Byte} {g : Seg} (ok : s.checkLine p (.move b t x) = .ok g) :
    ∃ h, handleOf b = some h ∧ (s.entry h).state = .present ∧ (s.entry h).segment = g ∧ s.moveTarget g t = none := by
  obtain ⟨h, hh, ok⟩ := Except.bind_eq_ok ok
  obtain ⟨_, later, ok⟩ := Except.bind_eq_ok ok
  cases ok
  obtain ⟨state, -, own⟩ := State.laterChecks_ok later
  refine ⟨h, (State.commonAll_named hh).1, ?_, rfl, own⟩
  cases hs : (s.entry h).state <;> simp_all [moveState]

/-- A RETIRE that passes its checks names an entry that holds a node and is not in hand (R153). -/
theorem State.checkLine_retire {s : State} {p : PortId} {b x : Byte} {f : Bool} {g : Seg}
    (ok : s.checkLine p (.retire b f x) = .ok g) :
    ∃ h, handleOf b = some h ∧ (s.entry h).segment = g ∧ ∃ prior, (s.entry h).state = priorState prior := by
  obtain ⟨h, hh, ok⟩ := Except.bind_eq_ok ok
  obtain ⟨_, later, ok⟩ := Except.bind_eq_ok ok
  cases ok
  obtain ⟨state, -, -⟩ := State.laterChecks_ok later
  refine ⟨h, (State.commonAll_named hh).1, rfl, ?_⟩
  cases hs : (s.entry h).state
  case seeded => exact ⟨.seeded, rfl⟩
  case present => exact ⟨.present, rfl⟩
  case absent => exact ⟨.absent, rfl⟩
  case conflict => exact ⟨.conflict, rfl⟩
  all_goals simp_all [retireState]

theorem priorOf_priorState (prior : Prior) : priorOf (priorState prior) = some prior := by cases prior <;> rfl

theorem priorOf_eq_some {st : EntryState} {prior : Prior} (h : priorOf st = some prior) : st = priorState prior := by
  cases st <;> simp_all [priorOf] <;> subst h <;> rfl

theorem priorState_ne_free (prior : Prior) : priorState prior ≠ .free := by cases prior <;> simp [priorState]

/-! ### Admission -/

theorem State.Keeps.admissionChange {s : State} {p : PortId} {g k : Seg} {q : LineReq} {t : State} (same : t.entries = s.entries)
    (ok : s.checkLine p q.atAdmission = .ok k) : t.Keeps (t.admissionChange g q) := by
  have entry (h : Handle) : t.entry h = s.entry h := by simp [State.entry, same]
  unfold State.admissionChange
  cases q with
  | move b target x =>
    obtain ⟨h, hb, present, -, -⟩ := State.checkLine_move ok
    simp only [hb]
    refine (State.Keeps.setMap ..).trans (.change ?_ (by simp) (by simp))
    rw [State.setMap_entry, entry]
    exact .held (by simp [present]) (by simp) rfl rfl id (.inr ⟨rfl, by simp [present, EntryState.keepsAge]⟩) fun _ _ =>
      Entry.below_of_state (by simp) (by simp)
  | retire b force x =>
    obtain ⟨h, hb, -, prior, hp⟩ := State.checkLine_retire ok
    simp only [hb, entry, hp, priorOf_priorState]
    refine (State.Keeps.dropResolution ..).trans (.change ?_ (by simp [State.dropResolution_eq, entry]) (by simp [State.dropResolution_eq, entry]))
    rw [State.dropResolution_eq, State.updEngine_entry, entry]
    refine .held (by rw [hp]; exact priorState_ne_free _) (by simp) rfl rfl id (.inr ⟨rfl, ?_⟩) fun _ _ =>
      Entry.below_of_state (by simp) (by simp)
    cases prior <;> simp [hp, priorState, EntryState.keepsAge]
  | nodeRead | nodeWrite | broadcast | discover => exact .refl t

theorem PortState.dispatchHead_busy {x : PortState} {i j : SlotIx} (h : (x.dispatchHead i).slots[j].isBusy = true) :
    x.slots[j].isBusy = true := by
  by_cases hij : i = j
  · subst hij
    cases hs : x.slots[i] <;> simp_all [PortState.dispatchHead, Slot.request?, Slot.isBusy]
  · have hv : i.val ≠ j.val := fun e => hij (Fin.ext e)
    simpa [PortState.dispatchHead, hv] using h

/-- A request waiting for a queue with a free place enters it, or is answered (R78). -/
theorem State.Keeps.tryEnter {s : State} {p : PortId} {i : SlotIx} {g : Seg} {q : LineReq}
    (place : (s.engine g).queue.length < 8) (waits : ∃ r, s.slot p i = .waiting r) : s.Keeps (s.tryEnter p i g q).1 := by
  unfold State.tryEnter
  split
  · exact .finish ..
  · rename_i ok
    have queued (x : QueueItem) : s.Keeps (s.updEngine g fun e => { e with queue := e.queue ++ [x], lastServed := p }) := by
      refine .updEngine rfl (fun _ => by simp; omega) (fun _ idle _ => ?_) id fun _ => id
      obtain ⟨r, hr⟩ := waits
      simpa [hr, Slot.isBusy] using idle p i
    unfold State.enterQueue
    rw [State.updPort_eq]
    refine ((queued _).trans (.setPort_lists ?_ fun j hj => ?_)).trans (.admissionChange ?_ ok)
    · simp [PortState.dispatchHead]
    · have := PortState.dispatchHead_busy hj
      simpa [State.slot] using this
    · simp

end Sys2Proof.Machine
end

section
/-! PROOFS. What the intake arbiter, dispatch, the serviced requests and the end of an exchange keep. -/

namespace Sys2Proof.Machine

/-! ### The intake arbiter and dispatch -/

/-- A request that waits for a queue is WAITING in its slot. -/
theorem State.waitingFor_slot {s : State} {g : Seg} {p : PortId} {i : SlotIx} {q : LineReq}
    (h : s.waitingFor g p = some (i, q)) : ∃ r, s.slot p i = .waiting r := by
  unfold State.waitingFor at h
  split at h
  · rename_i j r g0 hhead _
    have hj : j = i := by
      split at h
      · dsimp only at h
        (repeat' split at h) <;> simp_all
      · cases h
    subst hj
    unfold State.head? at hhead
    split at hhead
    · cases hhead
    · split at hhead <;> simp_all
  · cases h

theorem State.Keeps.arbitrate {s : State} {g : Seg} (place : (s.engine g).queue.length < 8) : s.Keeps (s.arbitrate g) := by
  unfold State.arbitrate
  dsimp only
  split
  · rename_i h _; exact .tryEnter place (State.waitingFor_slot h)
  · rename_i h; exact .tryEnter place (State.waitingFor_slot h)
  · rename_i i q j r hi hj
    have first : s.Keeps (s.tryEnter (s.engine g).firstServed i g q).1 := .tryEnter place (State.waitingFor_slot hi)
    refine .ite (fun _ => first) fun refused => first.trans (.tryEnter ?_ ?_)
    all_goals
      unfold State.tryEnter at refused ⊢
      split at refused
    · simpa using place
    · simp at refused
    · rw [State.finish_slot_ne _ _ _ _ _ _ (by simp)]
      exact State.waitingFor_slot hj
    · simp at refused
  · exact .refl s

theorem State.Keeps.admitDispatched {s : State} (p : PortId) {g : Seg} (place : (s.engine g).queue.length < 8) :
    s.Keeps (s.admitDispatched p g) := by
  unfold State.admitDispatched
  dsimp only
  refine .ite (fun again => ?_) fun _ => .arbitrate place
  exact (State.Keeps.arbitrate place).trans (.arbitrate ((State.queueHasPlace_iff ..).1 again.2))

/-- A dispatch comes about out of STARTING, or changes nothing. -/
theorem State.Keeps.dispatch {s : State} (p : PortId) (k : ReqKind) {f : SlotIx → Request → State}
    (hf : s.runState.isStarting = false → ∀ i r, s.slot p i = .waiting r → s.Keeps (f i r)) : s.Keeps (s.dispatch p k f) := by
  unfold State.dispatch
  split
  · rename_i i r hh
    have hw : s.slot p i = .waiting r := by
      unfold State.head? at hh
      split at hh
      · cases hh
      · split at hh <;> simp_all
    exact .ite (fun hc => hf hc.1 i r hw) fun _ => .refl s
  · exact .refl s

theorem State.Keeps.dispatchLine (s : State) (p : PortId) (k : ReqKind) : s.Keeps (s.dispatchLine p k) := by
  refine .dispatch p k fun _ i r _ => ?_
  split
  · exact .finish ..
  · split
    · exact .finish ..
    · rename_i g _
      have waits : s.Keeps (s.updPort p fun x => { x with waitsFor := some g }) := .setPort_lists rfl fun _ => id
      refine .ite (fun place => waits.trans (.admitDispatched p ?_)) fun _ => waits
      simpa using (State.queueHasPlace_iff s g).1 place

theorem State.Keeps.serve {s : State} (p : PortId) (k : ReqKind) {f : State → PortId → List Byte → State × Answer}
    (hf : s.runState.isStarting = false → ∀ body, s.Keeps (f s p body).1) : s.Keeps (s.serve p k f) :=
  .dispatch p k fun out _ r _ => (hf out r.body).trans (.finish ..)

/-! ### Requests served in their dispatch -/

theorem State.Keeps.lookup {β : Type} (parse : List Byte → Option β) (f : State → PortId → β → Answer) (s : State) (p : PortId)
    (body : List Byte) : s.Keeps (lookup parse f s p body).1 := by
  unfold Machine.lookup
  split <;> exact .refl s

theorem State.Keeps.serveSetLabel (s : State) (p : PortId) (body : List Byte) : s.Keeps (serveSetLabel s p body).1 := by
  unfold Machine.serveSetLabel
  split
  · exact .refl s
  · split
    · exact .refl s
    · rename_i h ok
      have held := (State.commonAll_named ok).2
      exact .change (.held held held rfl rfl id (.inr ⟨rfl, id⟩) fun _ => id) rfl rfl

theorem strideOf_range {n : Nat} (low : 1 ≤ n) (high : n ≤ 15) :
    ∀ st ∈ strideOf n, 2 ≤ st.value ∧ st.value ≤ 15 ∧ st.counter < st.value := by
  intro st hst
  unfold strideOf at hst
  split at hst
  · cases hst
  · cases hst
    exact ⟨by dsimp only; omega, high, low⟩

theorem bodySetStride_range {body : List Byte} {q : StrideBody} (h : bodySetStride body = some q) : 1 ≤ q.stride ∧ q.stride ≤ 15 := by
  unfold bodySetStride at h
  split at h
  · split at h
    · cases h; assumption
    · cases h
  · cases h

theorem State.Keeps.serveSetStride (s : State) (p : PortId) (body : List Byte) : s.Keeps (serveSetStride s p body).1 := by
  unfold Machine.serveSetStride
  split
  · exact .refl s
  · rename_i q hq
    obtain ⟨low, high⟩ := bodySetStride_range hq
    split
    · exact .refl s
    · rename_i h ok
      have held := (State.commonAll_named ok).2
      have keeps : (s.entry h).Keeps s.threshold { s.entry h with stride := strideOf q.stride } :=
        { bare := fun _ hf => absurd hf held
          identity := fun hf => ⟨hf, rfl⟩
          counts := fun ⟨hs, ha, _⟩ => ⟨hs, ha, strideOf_range low high⟩
          age := id
          below := fun _ => id }
      exact .change keeps rfl rfl

theorem State.Keeps.serveClaim (c : Option PortId) (s : State) (p : PortId) (body : List Byte) :
    s.Keeps (serveClaim c s p body).1 := by
  unfold Machine.serveClaim
  split
  · exact .refl s
  · split
    · exact .refl s
    · rename_i h ok
      have held := (State.commonToPermit_ok ok).2
      split
      · exact .refl s
      · refine .setEntry (.held held held rfl rfl id (.inr ⟨rfl, id⟩) fun _ => id) id fun q _ hw => ?_
        cases q <;> exact hw

theorem Entry.Keeps.setWatch {T : Seg → Nat} (e : Entry) (p : PortId) (on : Bool) : e.Keeps T (e.setWatch p on) := by
  have fields : (e.setWatch p on).state = e.state ∧ (e.setWatch p on).identity = e.identity ∧
      (e.setWatch p on).silence = e.silence ∧ (e.setWatch p on).age = e.age ∧ (e.setWatch p on).stride = e.stride ∧
      (e.setWatch p on).segment = e.segment := by cases p <;> exact ⟨rfl, rfl, rfl, rfl, rfl, rfl⟩
  obtain ⟨hs, hi, hq, ha, hst, hg⟩ := fields
  exact
    { bare := fun he hf => by
        have hbare := he (hs ▸ hf)
        rw [hbare]; cases p <;> rfl
      identity := fun hf => ⟨by rwa [Entry.isFree, hs] at hf, hi⟩
      counts := fun hc => by rwa [Entry.countsInRange, hq, ha, hst]
      age := fun hk => by rwa [Entry.ageIdle, hs, ha]
      below := fun _ hb => by rwa [Entry.below, hs, hq, hg] }

theorem State.Keeps.serveWatch (on : Bool) (s : State) (p : PortId) (body : List Byte) : s.Keeps (serveWatch on s p body).1 := by
  unfold Machine.serveWatch
  split
  · exact .refl s
  · split
    · exact .refl s
    · rename_i h _
      change s.Keeps (s.watchWritten p on h)
      cases on
      case true =>
        refine .setEntry (.setWatch ..) (by simp) fun q _ hw => ?_
        cases p <;> cases q <;> simp_all [Entry.setWatch, Entry.watches]
      case false =>
        have dropped : s.Keeps (s.setPort p ((s.port p).dropChange h)) := by
          refine .setPort (fun k hk => ?_) fun _ => id
          by_cases hkh : h.val = k.val
          · simp [PortState.dropChange, hkh] at hk
          · exact .inl (by simpa [PortState.dropChange, hkh] using hk)
        have same : s.watchWritten p false h =
            (s.setPort p ((s.port p).dropChange h)).setEntry h ((s.entry h).setWatch p false) := by
          simp [State.watchWritten, State.setEntry_setPort]
        rw [same]
        refine dropped.trans (.setEntry (by rw [State.setPort_entry]; exact .setWatch ..) (by simp) fun q hc hw => ?_)
        rw [State.setPort_port] at hc
        rw [State.setPort_entry] at hw
        cases p <;> cases q <;> simp_all [Entry.setWatch, Entry.watches, PortState.dropChange]

theorem State.checkSeed_ok {s : State} {p : PortId} {q : SeedBody} {h : Handle} (ok : s.checkSeed p q = .ok h) :
    s.inPool q.segment q.address = true ∧ s.mapSlot q.segment q.address = .empty ∧ s.holder q.identity = none ∧
      s.lowestFree = some h := by
  unfold State.checkSeed at ok
  split at ok
  · cases ok
  · split at ok
    · cases ok
    · split at ok
      · cases ok
      · rename_i pool
        split at ok
        · cases ok
        · cases ok
        · cases ok
        · split at ok
          · cases ok
          · split at ok
            · cases ok
              exact ⟨by simpa using pool, by assumption, by assumption, by assumption⟩
            · cases ok

theorem State.Keeps.serveSeed {s : State} (out : s.runState.isStarting = false) (p : PortId) (body : List Byte) :
    s.Keeps (serveSeed s p body).1 := by
  unfold Machine.serveSeed
  split
  · exact .refl s
  · split
    · exact .refl s
    · rename_i q _ _ h ok
      obtain ⟨_, _, unheld, _⟩ := State.checkSeed_ok ok
      refine (State.Keeps.setMap s q.segment q.address (.held h)).trans ?_
      have := State.Keeps.fill (s := s.setMap q.segment q.address (.held h)) (h := h) (w := q.identity) (c := q.cls)
        (g := q.segment) (a := q.address) (l := q.label) (.inl rfl) (by simpa [State.holder] using unheld) (by simp [out])
      simpa using this

/-- A change of the run state and the window alone, into a run state that is not of STARTING and not QUIET. -/
theorem State.Keeps.runs {s : State} {r : RunState} {w : Bool} (out : r = .run ∨ r = .quieting)
    (window : s.seedingInRun → w = true → r = .run) : s.Keeps { s with runState := r, seeding := w } where
  pending := rfl
  generations := id
  bare := id
  counts := id
  ages := id
  identities := id
  silences := by
    rintro ⟨hT, hbelow, -, -⟩
    refine ⟨hT, hbelow, fun h => ?_, fun h => ?_⟩ <;> rcases out with rfl | rfl <;> cases h
  queues := id
  resolutions := id
  watched _ := id
  seeding h hw := .inl (window h hw)
  drained _ h := by rcases out with rfl | rfl <;> cases h

theorem State.Keeps.closeWindow (s : State) : s.Keeps { s with seeding := false } where
  pending := rfl
  generations := id
  bare := id
  counts := id
  ages := id
  identities := id
  silences := id
  queues := id
  resolutions := id
  watched _ := id
  seeding _ h := by cases h
  drained := id

theorem State.Keeps.serveSeedEnd (s : State) (p : PortId) (body : List Byte) : s.Keeps (serveSeedEnd s p body).1 := by
  unfold Machine.serveSeedEnd
  split
  · exact .refl s
  · split
    · exact .closeWindow s
    · exact .refl s

theorem State.Keeps.serveClearNotices (s : State) (p : PortId) (body : List Byte) :
    s.Keeps (serveClearNotices s p body).1 := by
  unfold Machine.serveClearNotices
  split
  · exact .refl s
  · exact .setPort (fun _ => .inl) fun _ => id

theorem State.Keeps.serveSetNoticeMask (s : State) (p : PortId) (body : List Byte) :
    s.Keeps (serveSetNoticeMask s p body).1 := by
  unfold Machine.serveSetNoticeMask
  split
  · exact .refl s
  · exact .setPort (fun _ => .inl) fun _ => id

/-- A change set with handles taken out. -/
theorem NoticeUnit.removeChanged_getElem (u : NoticeUnit) (hs : List Handle) (h : Handle) :
    (u.removeChanged hs).changed[h] = true ↔ u.changed[h] = true ∧ h ∉ hs := by
  unfold NoticeUnit.removeChanged
  dsimp only
  generalize u.changed = v
  induction hs generalizing v with
  | nil => simp
  | cons k hs ih =>
    rw [List.foldl_cons, ih]
    by_cases hk : h = k
    · subst hk; simp
    · have hv : k.val ≠ h.val := fun e => hk (Fin.ext e.symm)
      simp [hk, hv]

theorem State.Keeps.serveGetChanges (s : State) (p : PortId) (body : List Byte) : s.Keeps (serveGetChanges s p body).1 := by
  unfold Machine.serveGetChanges
  split
  · exact .refl s
  · exact .setPort (fun h hk => .inl ((NoticeUnit.removeChanged_getElem _ _ h).1 hk).1) fun _ => id

theorem State.Keeps.serveQuiet (s : State) (p : PortId) (body : List Byte) : s.Keeps (serveQuiet s p body).1 := by
  unfold Machine.serveQuiet
  split
  · exact .refl s
  · split
    · rename_i hq
      exact .runs (.inr rfl) (fun _ hw => by rw [hq.2] at hw; cases hw)
    · exact .refl s

theorem State.Keeps.dispatchWake (s : State) (p : PortId) : s.Keeps (s.dispatchWake p) := by
  refine .dispatch p _ fun _ i r _ => ?_
  split
  · exact .finish ..
  · exact (State.Keeps.wake s).trans (.finish ..)

/-! ### Exchanges -/

theorem State.Keeps.deliver (s : State) (p : PortId) (x : Exchange) (n : Nat) : s.Keeps (s.deliver p x n) := by
  have removed (i : SlotIx) : s.Keeps (s.setPort p ((s.port p).removeResponse i)) := by
    refine .setPort_lists rfl fun j hj => ?_
    by_cases hij : i.val = j.val
    · simp [PortState.removeResponse, hij, Slot.isBusy] at hj
    · simpa [PortState.removeResponse, hij, State.slot] using hj
  have untouched : s.Keeps (s.setPort p (s.port p)) := by rw [State.setPort_self]; exact .refl s
  unfold State.deliver PortState.afterDelivery
  refine .ite (fun _ => .refl s) fun _ => ?_
  rw [State.updPort_eq]
  split
  · split
    · exact removed _
    · exact untouched
  · exact untouched

theorem Entry.Keeps.dropPort {T : Seg → Nat} (e : Entry) (p : PortId) : e.Keeps T (e.dropPort p) := by
  have watch := Entry.Keeps.setWatch (T := T) e p false
  exact
    { bare := fun he hf => by
        have hbare := he (by cases p <;> exact hf)
        rw [hbare]; cases p <;> rfl
      identity := watch.identity
      counts := watch.counts
      age := watch.age
      below := watch.below }

/-- A port's requests, claims and watches leave the entries and the engines, and then the port is emptied. -/
def State.portDropped (s : State) (p : PortId) : State :=
  { s with entries := s.entries.map (fun (e : Entry) => e.dropPort p), engines := s.engines.map (fun (e : Engine) => e.dropPort p) }

theorem State.portDropped_entry (s : State) (p : PortId) (h : Handle) : (s.portDropped p).entry h = (s.entry h).dropPort p := by
  simp [State.portDropped, State.entry]

theorem State.portDropped_engine (s : State) (p : PortId) (g : Seg) : (s.portDropped p).engine g = (s.engine g).dropPort p := by
  simp [State.portDropped, State.engine]

theorem State.portDropped_threshold (s : State) (p : PortId) (g : Seg) : (s.portDropped p).threshold g = s.threshold g := by
  simp [State.threshold, State.portDropped_engine, Engine.dropPort]

@[simp] theorem State.portDropped_port (s : State) (p q : PortId) : (s.portDropped p).port q = s.port q := by cases q <;> rfl

theorem State.Keeps.portReset (s : State) (p : PortId) : s.Keeps (s.portReset p) := by
  have entry (h : Handle) : (s.entry h).Keeps s.threshold ((s.portDropped p).entry h) := by
    rw [State.portDropped_entry]; exact .dropPort ..
  have returns := State.Keeps.returnItems (s.portDropped p) (allSegments.flatMap (s.queuedOf p))
  have empties (t : State) : t.Keeps (t.updPort p PortState.cleared) :=
    .setPort (fun h hk => by simp [PortState.cleared, resetNotices] at hk) fun _ _ i => by simp [PortState.cleared, Slot.isBusy]
  have rest := returns.trans (empties _)
  exact
    { pending := rest.pending
      generations := fun hs => rest.generations fun h => by
        rw [State.portDropped_entry]; cases p <;> exact hs h
      bare := fun hs => rest.bare fun h => (entry h).bare (hs h)
      counts := fun hs => rest.counts fun h => (entry h).counts (hs h)
      ages := fun hs => rest.ages fun h => (entry h).age (hs h)
      identities := fun hs => rest.identities fun h k fh fk e => by
        obtain ⟨fh', ih⟩ := (entry h).identity fh
        obtain ⟨fk', ik⟩ := (entry k).identity fk
        exact hs h k fh' fk' (ih.symm.trans (e.trans ik))
      silences := fun ⟨hT, hbelow, hidle, hfree⟩ => rest.silences
        ⟨fun g => by rw [State.portDropped_threshold]; exact hT g,
          fun h => by
            rw [funext (s.portDropped_threshold p)]
            exact (entry h).below (fun g => (hT g).1) (hbelow h),
          fun hst g => by rw [State.portDropped_engine, Engine.dropPort]; simp [hidle hst g],
          fun hl h => by
            have := (entry h).identity
            simp only [Entry.isFree_false_iff] at this
            exact Classical.byContradiction fun n => (this n).1 (hfree hl h)⟩
      queues := fun hs => rest.queues fun g => by
        rw [State.portDropped_engine]; exact (List.length_filter_le _ _).trans (hs g)
      resolutions := fun hs => rest.resolutions fun g => by
        rw [State.portDropped_engine]; exact hs g
      watched := fun q hs => by
        by_cases hq : q = p
        · subst hq
          intro h hk
          simp [State.portReset, PortState.cleared, resetNotices] at hk
        · refine rest.watched q fun h hk => ?_
          have := hs h (by simpa using hk)
          rw [State.portDropped_entry]
          cases p <;> cases q <;> simp_all [Entry.dropPort, Entry.setWatch, Entry.watches]
      seeding := fun hs => rest.seeding hs
      drained := fun hs => rest.drained fun hq => by
        obtain ⟨slots, queues⟩ := hs hq
        refine ⟨fun q i => by simpa [State.slot] using slots q i, fun g => ?_⟩
        rw [State.portDropped_engine, Engine.dropPort, queues g]
        rfl }

theorem RunState.takes_not_quiet {r : RunState} {k : ReqKind} (h : r.takes k = true) : k = .wake ∨ r = .run := by
  cases r <;> simp_all [RunState.takes]

theorem State.Keeps.takeFrame (s : State) (p : PortId) (f : TakenFrame) : s.Keeps (s.takeFrame p f).1 := by
  unfold State.takeFrame
  split
  · exact .refl s
  · rename_i takes
    split
    · exact .portReset ..
    · have woken : s.Keeps (if f.kind = .wake then s.wake else s) := .ite (fun _ => .wake s) fun _ => .refl s
      have awake : (if f.kind = .wake then s.wake else s).runState ≠ .quiet := by
        rcases RunState.takes_not_quiet (Bool.not_eq_false _ ▸ takes) with hw | hr
        · rw [if_pos hw, State.wake_runState]
          cases s.runState <;> simp [RunState.woken]
        · split <;> simp [hr, RunState.woken]
      dsimp only
      split
      · exact woken
      · exact woken.trans (.setPort (fun _ => .inl) fun hq => absurd hq awake)

theorem State.Keeps.judge (s : State) (p : PortId) (sent : List Bool) : s.Keeps (s.judge p sent).1 := by
  unfold State.judge
  split
  · exact .refl s
  · exact .refl s
  · exact .takeFrame ..

theorem State.Keeps.endExchange (s : State) (p : PortId) (x : Exchange) (sent : List Bool) :
    s.Keeps (s.endExchange p x sent) :=
  ((State.Keeps.deliver ..).trans (.judge ..)).trans (.setPort_lists rfl fun _ => id)

end Sys2Proof.Machine
end

section
/-! PROOFS. What the picks and the restarts keep. -/

namespace Sys2Proof.Machine

/-! ### Picks -/

theorem State.Keeps.record (s : State) (g : Seg) (took : Bool) : s.Keeps (s.record g took) :=
  .updEngine_same (fun _ => rfl) (fun _ => rfl) (fun _ => rfl) fun _ => id

theorem State.Keeps.startPass (s : State) (g : Seg) (l : List (PortId × SlotIx)) : s.Keeps (s.startPass g l) := .updPass ..

@[simp] theorem State.appendResolution_runState (s : State) (g : Seg) (h : Handle) :
    (s.appendResolution g h).runState = s.runState := rfl

@[simp] theorem State.pollScan_runState (s : State) (g : Seg) (l : List Handle) : (s.pollScan g l).1.runState = s.runState := by
  induction l generalizing s with
  | nil => rfl
  | cons h l ih => unfold State.pollScan; dsimp only; (repeat' split) <;> simp [ih]

theorem State.Keeps.setCounter {s : State} {h : Handle} {st : Stride} (n : Nat) (held : (s.entry h).state ≠ .free)
    (hs : (s.entry h).stride = some st) (counter : 2 ≤ st.value → st.counter < st.value → n < st.value) :
    s.Keeps (s.setEntry h { s.entry h with stride := some { st with counter := n } }) := by
  have keeps : (s.entry h).Keeps s.threshold { s.entry h with stride := some { st with counter := n } } :=
    { bare := fun _ hf => absurd hf held
      identity := fun hf => ⟨hf, rfl⟩
      counts := fun ⟨hq, ha, hst⟩ => ⟨hq, ha, fun x hx => by
        obtain ⟨low, high, lt⟩ := hst st hs
        cases hx
        exact ⟨low, high, counter low lt⟩⟩
      age := id
      below := fun _ => id }
  exact .setEntry keeps id fun p _ hw => by cases p <;> exact hw

theorem State.Keeps.pollScan (s : State) (g : Seg) (l : List Handle) : s.Keeps (s.pollScan g l).1 := by
  induction l generalizing s with
  | nil => exact .refl s
  | cons h l ih =>
    unfold State.pollScan
    dsimp only
    split
    · split
      · exact (State.Keeps.appendResolution ..).trans (ih _)
      case h_2 | h_3 | h_4 =>
        have held : (s.entry h).state ≠ .free := by simp [*]
        split
        · exact .refl s
        · rename_i st hst
          split
          · exact .setCounter _ held hst fun low _ => by omega
          · exact (State.Keeps.setCounter _ held hst fun _ lt => by omega).trans (ih _)
      all_goals exact ih s
    · exact ih s

theorem State.Keeps.pollTurn (s : State) (g : Seg) : s.Keeps (s.pollTurn g).1 := by
  have clear : s.Keeps (s.updEngine g fun e => { e with pollDue := false }) :=
    .updEngine_same (fun _ => rfl) (fun _ => rfl) (fun _ => rfl) fun _ => id
  exact clear.trans (.pollScan ..)

theorem State.pollTurn_runState (s : State) (g : Seg) : (s.pollTurn g).1.runState = s.runState := by
  unfold State.pollTurn; dsimp only; rw [State.pollScan_runState]; rfl

theorem State.Keeps.beginPoll {s : State} (g : Seg) (h : Handle) (out : s.runState.isStarting = false) :
    s.Keeps (s.beginPoll g h) := by
  have cursor : s.Keeps (s.updEngine g fun x => { x with cursor := h + 1 }) :=
    .updEngine_same (fun _ => rfl) (fun _ => rfl) (fun _ => rfl) fun _ => id
  exact cursor.trans (.begin g _ _ _ out)

theorem State.Keeps.pickContest {s : State} (g : Seg) (out : s.runState.isStarting = false) : s.Keeps (s.pickContest g) := by
  have marked : s.Keeps ((s.record g false).updEngine g fun e => { e with discoveryDue := false }) :=
    (State.Keeps.record ..).trans (.updEngine_same (fun _ => rfl) (fun _ => rfl) (fun _ => rfl) fun _ => id)
  unfold State.pickContest
  dsimp only
  refine .ite (fun _ => marked.trans (.begin _ _ _ _ out)) fun _ => .ite (fun _ => ?_) fun _ => ?_
  · exact (marked.trans (.startPass ..)).trans (.begin _ _ _ _ out)
  · exact (marked.trans (.startPass ..)).trans (.begin _ _ _ _ out)

theorem PortState.goOnLine_busy {x : PortState} {i j : SlotIx} (h : (x.goOnLine i).slots[j].isBusy = true) :
    x.slots[j].isBusy = true := by
  by_cases hij : i = j
  · subst hij
    cases hs : x.slots[i] <;> simp_all [PortState.goOnLine, Slot.request?, Slot.isBusy]
  · have hv : i.val ≠ j.val := fun e => hij (Fin.ext e)
    simpa [PortState.goOnLine, hv] using h

theorem State.Keeps.takeHead (s : State) (g : Seg) (x : QueueItem) : s.Keeps (s.takeHead g x) := by
  have shorter : s.Keeps (s.updEngine g fun e => { e with queue := e.queue.tail }) :=
    .updEngine rfl (fun h => by simp; omega) (fun _ _ h => by simp [h]) id fun _ => id
  refine shorter.trans (.setPort_lists rfl fun j hj => ?_)
  have := PortState.goOnLine_busy hj
  simpa [State.slot] using this

@[simp] theorem State.takeHead_runState (s : State) (g : Seg) (x : QueueItem) : (s.takeHead g x).runState = s.runState := by
  simp [State.takeHead]

@[simp] theorem State.record_runState (s : State) (g : Seg) (b : Bool) : (s.record g b).runState = s.runState := rfl

theorem State.Keeps.pickDiscover {s : State} (g : Seg) (x : QueueItem) (out : s.runState.isStarting = false) :
    s.Keeps (s.pickDiscover g x) := by
  have taken : s.Keeps ((s.takeHead g x).record g true) := (State.Keeps.takeHead ..).trans (.record ..)
  unfold State.pickDiscover
  dsimp only
  refine .ite (fun _ => .ite (fun _ => taken.trans (.updPass ..)) fun _ => .ite (fun _ => ?_) fun _ => ?_) fun _ => ?_
  · exact (taken.trans (.startPass ..)).trans (.begin _ _ _ _ (by simpa [State.startPass, State.updPass_eq] using out))
  · exact taken.trans (.startPass ..)
  · exact taken.trans (.finish ..)

theorem State.Keeps.pickQueue {s : State} (g : Seg) (x : QueueItem) (out : s.runState.isStarting = false) :
    s.Keeps (s.pickQueue g x) := by
  have taken : s.Keeps ((s.takeHead g x).record g true) := (State.Keeps.takeHead ..).trans (.record ..)
  unfold State.pickQueue
  split
  · exact .pickDiscover g x out
  · exact taken.trans (.begin _ _ _ _ (by simpa using out))
  · dsimp only
    refine .ite (fun _ => (State.Keeps.takeHead ..).trans (.finish ..)) fun _ => taken.trans (.begin _ _ _ _ (by simpa using out))
  · exact .refl s

theorem State.Keeps.pickRest {s : State} (g : Seg) (out : s.runState.isStarting = false) : s.Keeps (s.pickRest g) := by
  unfold State.pickRest
  refine .ite (fun _ => .pickContest g out) fun _ => ?_
  split
  case h_1 | h_2 => exact .pickQueue g _ out
  all_goals exact .record ..

theorem State.Keeps.pickPoll {s : State} (g : Seg) (out : s.runState.isStarting = false) : s.Keeps (s.pickPoll g) := by
  have turn := State.Keeps.pollTurn s g
  have out' : (s.pollTurn g).1.runState.isStarting = false := by rw [State.pollTurn_runState]; exact out
  unfold State.pickPoll
  refine .ite (fun _ => ?_) fun _ => .pickRest g out
  split
  · rename_i t h ht
    rw [ht] at turn out'
    exact (turn.trans (.record ..)).trans (.beginPoll g h (by simpa using out'))
  · rename_i t ht
    rw [ht] at turn out'
    exact turn.trans (.pickRest g out')

theorem State.readied_runState (s : State) (g : Seg) : (s.readied g).runState = s.runState := by
  unfold State.readied
  rw [show (s.passOver g .ok 3) = s.endPass g .quiet from (State.endPass_eq s g .quiet).symm]
  split <;> simp

/-- The pick takes its work from the readied state. -/
theorem State.pickWork_eq (s : State) (g : Seg) :
    s.pickWork g =
      match ((s.readied g).engine g).resolution with
      | h :: _ => if (s.readied g).seeding then (s.readied g).pickPoll g else ((s.readied g).record g false).beginResolution g h
      | [] => (s.readied g).pickPoll g := by
  unfold State.pickWork State.readied
  rw [show (s.passOver g .ok 3) = s.endPass g .quiet from (State.endPass_eq s g .quiet).symm] <;>
    rfl

theorem State.Keeps.readied (s : State) (g : Seg) : s.Keeps (s.readied g) := by
  unfold State.readied
  rw [show (s.passOver g .ok 3) = s.endPass g .quiet from (State.endPass_eq s g .quiet).symm]
  exact .ite (fun _ => .refl s) fun _ => .endPass ..

theorem State.Keeps.pickWork {s : State} (g : Seg) (out : s.runState.isStarting = false) : s.Keeps (s.pickWork g) := by
  have out' : (s.readied g).runState.isStarting = false := by rw [State.readied_runState]; exact out
  rw [State.pickWork_eq]
  refine (State.Keeps.readied s g).trans ?_
  split
  · refine .ite (fun _ => .pickPoll g out') fun _ => (State.Keeps.record ..).trans (.begin _ _ _ _ (by simpa using out'))
  · exact .pickPoll g out'

/-! ### Restarts -/

theorem State.clearing_entry (s : State) (h : Handle) : s.clearing.entry h = freeEntry 1 false false := by
  simp [State.clearing, State.entry]

theorem State.clearing_engine (s : State) (g : Seg) : s.clearing.engine g = (s.engine g).emptied := by
  simp [State.clearing, State.engine]

theorem State.clearing_port (s : State) (p : PortId) : s.clearing.port p = (s.port p).emptied := by cases p <;> rfl

theorem State.Keeps.clearing (s : State) : s.Keeps s.clearing where
  pending := rfl
  generations _ h := by rw [State.clearing_entry]; decide
  bare _ h _ := by rw [State.clearing_entry]; rfl
  counts _ h := by rw [State.clearing_entry]; simp [Entry.countsInRange, freeEntry]
  ages _ h _ := by rw [State.clearing_entry]; rfl
  identities _ h _ hf := by rw [State.clearing_entry] at hf; simp [freeEntry, Entry.isFree] at hf
  silences := fun ⟨hT, _, _, _⟩ =>
    ⟨fun g => by rw [State.threshold, State.clearing_engine]; exact hT g,
      fun h hs => by rw [State.clearing_entry] at hs; simp [freeEntry] at hs,
      fun _ g => by rw [State.clearing_engine]; rfl,
      fun _ h => by rw [State.clearing_entry]; rfl⟩
  queues _ g := by rw [State.clearing_engine]; exact Nat.zero_le _
  resolutions _ g := by rw [State.clearing_engine]; exact List.nodup_nil
  watched p _ h hk := by rw [State.clearing_port] at hk; simp [PortState.emptied, resetNotices] at hk
  seeding _ h := by cases h
  drained _ h := by cases h

theorem State.takeReset_engine (s : State) (g : Seg) : s.takeReset.engine g = (s.engine g).abandoned := by
  simp [State.takeReset, State.engine]

/-- A taken RESET, with whatever free value. -/
theorem State.Keeps.takeReset (s : State) : s.Keeps s.takeReset where
  pending := rfl
  generations := id
  bare := id
  counts := id
  ages := id
  identities := id
  silences := fun ⟨hT, hbelow, _, _⟩ => by
    have same (g : Seg) : s.takeReset.threshold g = s.threshold g := by
      rw [State.threshold, State.takeReset_engine]; rfl
    exact ⟨fun g => by rw [same]; exact hT g, fun h hs => by rw [same]; exact hbelow h hs,
      fun _ g => by rw [State.takeReset_engine]; rfl, fun h => by cases h⟩
  queues hs g := by rw [State.takeReset_engine]; exact hs g
  resolutions hs g := by rw [State.takeReset_engine]; exact hs g
  watched _ := id
  seeding _ _ := .inr rfl
  drained _ h := by cases h

theorem State.Keeps.freeCount (s : State) (n : Nat) : s.Keeps { s with freeCount := n } :=
  ⟨rfl, id, id, id, id, id, id, id, id, fun _ => id, id, id⟩

theorem State.Keeps.prescaler (s : State) (x : Prescaler) : s.Keeps { s with prescaler := x } :=
  ⟨rfl, id, id, id, id, id, id, id, id, fun _ => id, id, id⟩

theorem State.Keeps.resetPulse (s : State) (width : Nat) : s.Keeps (s.resetPulse width) := by
  unfold State.resetPulse
  refine .ite (fun _ => .refl s) fun _ => .ite (fun _ => .takeReset s) fun _ => ?_
  dsimp only
  exact .ite (fun _ => (State.Keeps.freeCount ..).trans (.takeReset _)) fun _ => .freeCount ..

theorem State.Keeps.releaseReset (s : State) : s.Keeps s.releaseReset := by
  unfold State.releaseReset
  split
  · rename_i b hs
    exact
      { pending := rfl
        generations := id
        bare := id
        counts := id
        ages := id
        identities := id
        silences := fun ⟨hT, hbelow, hidle, _⟩ => ⟨hT, hbelow, fun _ => hidle (by rw [hs]; rfl), fun h => (by cases h)⟩
        queues := id
        resolutions := id
        watched := fun _ => id
        seeding := fun _ _ => .inr rfl
        drained := fun _ h => by cases h }
  all_goals exact .refl s

theorem State.Keeps.settled (s : State) (cycles : Nat) : s.Keeps (s.settled cycles) := by
  unfold State.settled
  exact .ite (fun _ => (State.Keeps.prescaler ..).trans (.clearing _)) fun _ => .refl s

/-- The part as it enters RUN, before its notices are raised (R195). -/
def State.runBase (s : State) (x : Setup) : State :=
  { s with runState := .run, setup := x, seeding := true, engines := s.engines.zipWith Engine.started x.segments }

@[simp] theorem State.runBase_engine (s : State) (x : Setup) (g : Seg) :
    (s.runBase x).engine g = (s.engine g).started x.segments[g] := by simp [State.runBase, State.engine]

theorem State.enterRun_eq (s : State) (image : Option Image) (loading : s.runState = .starting .loading) :
    s.enterRun image =
      if (setupOf image).loaded then (s.runBase (setupOf image)).raise .restarted
      else ((s.runBase (setupOf image)).raise .restarted).raise .setupDefaulted := by
  rw [State.enterRun, if_pos loading]
  rfl

theorem State.Keeps.runBase {s : State} (x : Setup) (loading : s.runState = .starting .loading) : s.Keeps (s.runBase x) where
  pending := rfl
  generations := id
  bare := id
  counts := id
  ages := id
  identities := id
  silences := fun ⟨_, _, _, free⟩ =>
    ⟨fun g => by rw [State.threshold, State.runBase_engine]; simp [Engine.started, resetSettings],
      fun h hs => by
        have : (s.entry h).state = .free := free loading h
        rcases hs with hs | hs <;> exact absurd (this.symm.trans hs) (by simp),
      fun h => (by cases h), fun h => (by cases h)⟩
  queues hs g := by rw [State.runBase_engine]; exact hs g
  resolutions hs g := by rw [State.runBase_engine]; exact hs g
  watched _ := id
  seeding _ _ := .inl rfl
  drained _ h := by cases h

theorem State.Keeps.readEnds (s : State) (line : List Bool) : s.Keeps (s.readEnds line) := by
  unfold State.readEnds
  split
  · rename_i image _
    by_cases loading : s.runState = .starting .loading
    · have based := State.Keeps.runBase (setupOf image) loading
      rw [State.enterRun_eq s image loading]
      exact .ite (fun _ => based.trans (.raise ..)) fun _ => (based.trans (.raise ..)).trans (.raise ..)
    · rw [State.enterRun, if_neg loading]
      exact .refl s
  · exact .refl s

theorem Entry.Keeps.retained {T : Seg → Nat} (e : Entry) : e.Keeps T e.retained := by
  have seeded (held : e.state ≠ .free) : e.Keeps T { e with state := .seeded, silence := 0, age := 0 } :=
    .held held (by simp) rfl rfl (fun _ => Nat.zero_le _) (.inl rfl) fun hT _ => Entry.below_zero rfl hT
  unfold Entry.retained
  split
  case h_1 | h_2 | h_3 | h_4 | h_5 => exact seeded (by simp [*])
  all_goals exact .refl T e

theorem Entry.retained_watch (e : Entry) : e.retained.watchA = e.watchA ∧ e.retained.watchB = e.watchB := by
  unfold Entry.retained; split <;> exact ⟨rfl, rfl⟩

theorem State.Keeps.retainEntries (s : State) (l : List Handle) : s.Keeps (l.foldl State.retainEntry s) := by
  induction l generalizing s with
  | nil => exact .refl s
  | cons h l ih =>
    exact (State.Keeps.change (.retained _) (Entry.retained_watch _).1 (Entry.retained_watch _).2).trans (ih _)

/-- The part after a retain restart, before its entries are written. -/
def State.retainedBase (s : State) : State :=
  { s with
    runState := .run
    maps := s.maps.map (·.map MapSlot.retained)
    seeding := false
    portA := s.portA.freed
    portB := s.portB.freed
    engines := Vector.ofFn fun g => (s.engine g).retained g }

theorem State.retainRestart_eq (s : State) :
    s.retainRestart = (allHandles.foldl State.retainEntry s.retainedBase).raise .restarted := rfl

@[simp] theorem State.retainedBase_entry (s : State) (h : Handle) : s.retainedBase.entry h = s.entry h := rfl

@[simp] theorem State.retainedBase_engine (s : State) (g : Seg) : s.retainedBase.engine g = (s.engine g).retained g := by
  simp [State.retainedBase, State.engine]

@[simp] theorem State.retainedBase_port (s : State) (p : PortId) : s.retainedBase.port p = (s.port p).freed := by cases p <;> rfl

theorem State.Keeps.retainRestart (s : State) : s.Keeps s.retainRestart := by
  have base : s.Keeps s.retainedBase :=
    { pending := rfl
      generations := id
      bare := id
      counts := id
      ages := id
      identities := id
      silences := fun ⟨hT, hbelow, _, _⟩ => by
        have same (g : Seg) : s.retainedBase.threshold g = s.threshold g := by
          rw [State.threshold, State.retainedBase_engine]; rfl
        exact ⟨fun g => by rw [same]; exact hT g, fun h hs => by rw [same]; exact hbelow h hs,
          fun h => (by cases h), fun h => (by cases h)⟩
      queues := fun _ g => by rw [State.retainedBase_engine]; exact Nat.zero_le _
      resolutions := fun _ g => by rw [State.retainedBase_engine]; exact List.nodup_nil
      watched := fun p hs h hk => by rw [State.retainedBase_port] at hk; exact hs h hk
      seeding := fun _ h => by cases h
      drained := fun _ h => by cases h }
  rw [State.retainRestart_eq]
  exact (base.trans (.retainEntries ..)).trans (.raise ..)

theorem State.Keeps.dispatchRestart (s : State) (p : PortId) (k : RestartKind) {f : State → State} (hf : s.Keeps (f s)) :
    s.Keeps (s.dispatchRestart p k f) := by
  refine .dispatch p _ fun _ i r _ => ?_
  split
  · exact .finish ..
  · exact .ite (fun _ => hf) fun _ => .refl s

theorem Slot.idle_of_drained {s : State} (h : s.drained = true) :
    (∀ (p : PortId) (i : SlotIx), (s.slot p i).isBusy = false) ∧ ∀ g : Seg, (s.engine g).queue = [] ∧ (s.engine g).orphaned = false := by
  simp only [State.drained, Bool.and_eq_true, Bool.not_eq_true', Vector.all_eq_true, List.isEmpty_iff] at h
  obtain ⟨⟨ha, hb⟩, he⟩ := h
  refine ⟨fun p i => ?_, fun g => he g.val g.isLt⟩
  cases p
  · exact Bool.eq_false_iff.2 fun n => by
      have := (vector_any_iff s.portA.slots Slot.isBusy).2 ⟨i, n⟩
      simp [ha] at this
  · exact Bool.eq_false_iff.2 fun n => by
      have := (vector_any_iff s.portB.slots Slot.isBusy).2 ⟨i, n⟩
      simp [hb] at this

theorem State.Keeps.drain (s : State) : s.Keeps s.drain := by
  unfold State.drain
  refine .ite (fun hd => ?_) fun _ => .refl s
  obtain ⟨slots, engines⟩ := Slot.idle_of_drained hd.2
  exact
    { pending := rfl
      generations := id
      bare := id
      counts := id
      ages := id
      identities := id
      silences := fun ⟨hT, hbelow, _, _⟩ => ⟨hT, hbelow, fun h => (by cases h), fun h => (by cases h)⟩
      queues := id
      resolutions := id
      watched := fun _ => id
      seeding := fun hs hw => by
        rcases hs hw with h | h <;> rw [hd.1] at h <;> cases h
      drained := fun _ _ => ⟨slots, fun g => (engines g).1⟩ }

end Sys2Proof.Machine
end

section
/-! PROOFS. What SET_SEGMENT, the poll timer and the reference clock keep; then every command and every step, and the statements
about the properties that `State.Keeps` holds. -/

namespace Sys2Proof.Machine

/-! ### SET_SEGMENT -/

theorem State.loweredBy_iff (s : State) (g : Seg) (t : Nat) (h : Handle) :
    s.loweredBy g t h = true ↔ (s.entry h).segment = g ∧ ((s.entry h).state = .seeded ∨ (s.entry h).state = .present) ∧
      t ≤ (s.entry h).silence := by
  simp [State.loweredBy, and_assoc]

/-- An entry that falls becomes ABSENT in a directory event; any other stays (R114). -/
theorem State.lowerEntry_eq (g : Seg) (t : Nat) (s : State) (h : Handle) :
    State.lowerEntry g t s h =
      if s.loweredBy g t h then s.moved h { s.entry h with state := .absent, age := 0 } else s := by
  simp only [State.loweredBy_iff]
  unfold State.lowerEntry
  dsimp only
  split
  · rename_i hl
    refine State.change_of_state s h _ ?_ rfl rfl
    rcases hl.2.1 with hs | hs <;> simp [hs, stateCode]
  · rfl

theorem State.Keeps.lowerEntry (g : Seg) (t : Nat) (s : State) (h : Handle) : s.Keeps (State.lowerEntry g t s h) := by
  unfold State.lowerEntry
  dsimp only
  refine .ite (fun hl => ?_) fun _ => .refl s
  have held : (s.entry h).state ≠ .free := by rcases hl.2.1 with hs | hs <;> simp [hs]
  exact .change (.held held (by simp) rfl rfl id (.inl rfl) fun _ _ => Entry.below_of_state (by simp) (by simp)) rfl rfl

theorem State.Keeps.lowerThreshold (s : State) (g : Seg) (t : Nat) : s.Keeps (s.lowerThreshold g t) := by
  have entries (l : List Handle) (u : State) : u.Keeps (l.foldl (State.lowerEntry g t) u) := by
    induction l generalizing u with
    | nil => exact .refl u
    | cons h l ih => exact (State.Keeps.lowerEntry ..).trans (ih _)
  unfold State.lowerThreshold
  dsimp only
  exact .ite (fun _ => (entries ..).trans (.raise ..)) fun _ => entries ..

/-- One entry lowered changes no other entry. -/
theorem State.lowerEntry_entry_ne {g : Seg} {t : Nat} {s : State} {h k : Handle} (n : k ≠ h) :
    (State.lowerEntry g t s h).entry k = s.entry k := by
  rw [State.lowerEntry_eq]; split
  · exact State.moved_entry_ne s h k _ n
  · rfl

/-- The entries after a lowering of T over the handles of a list. -/
theorem State.lowerEntries_entry (g : Seg) (t : Nat) (l : List Handle) (distinct : l.Nodup) (s : State) (h : Handle) :
    (l.foldl (State.lowerEntry g t) s).entry h =
      if h ∈ l ∧ s.loweredBy g t h = true then
        { s.entry h with state := .absent, age := 0, generation := generationAfter (s.entry h).generation }
      else s.entry h := by
  induction l generalizing s with
  | nil => simp
  | cons k l ih =>
    obtain ⟨new, distinct⟩ := List.nodup_cons.1 distinct
    rw [List.foldl_cons, ih distinct]
    by_cases hk : h = k
    · subst hk
      have same : (State.lowerEntry g t s h).entry h = if s.loweredBy g t h then
          { s.entry h with state := .absent, age := 0, generation := generationAfter (s.entry h).generation }
          else s.entry h := by
        rw [State.lowerEntry_eq]; split
        · exact State.moved_entry_same ..
        · rfl
      simp [new, same]
    · have same := State.lowerEntry_entry_ne (g := g) (t := t) (s := s) hk
      simp [hk, same, State.loweredBy]

theorem State.lowerThreshold_entry (s : State) (g : Seg) (t : Nat) (h : Handle) :
    (s.lowerThreshold g t).entry h =
      if s.loweredBy g t h = true then
        { s.entry h with state := .absent, age := 0, generation := generationAfter (s.entry h).generation }
      else s.entry h := by
  have entries := State.lowerEntries_entry g t allHandles (List.nodup_finRange 128) s h
  have listed : h ∈ allHandles := List.mem_finRange h
  unfold State.lowerThreshold
  dsimp only
  split <;> simp [entries, listed]

theorem State.lowerEntries_engines (g : Seg) (t : Nat) (l : List Handle) (s : State) :
    (l.foldl (State.lowerEntry g t) s).engines = s.engines := by
  induction l generalizing s with
  | nil => rfl
  | cons h l ih =>
    rw [List.foldl_cons, ih, State.lowerEntry_eq]
    split <;> rfl

@[simp] theorem State.lowerThreshold_engine (s : State) (g : Seg) (t : Nat) (k : Seg) :
    (s.lowerThreshold g t).engine k = s.engine k := by
  unfold State.lowerThreshold
  dsimp only
  split
  · rw [State.raise_engine, State.engine, State.lowerEntries_engines, ← State.engine]
  · rw [State.engine, State.lowerEntries_engines, ← State.engine]

/-- From `s` to `t` the run state stays or is woken (R207). -/
def State.atMostWoken (s t : State) : Prop := t.runState = s.runState ∨ t.runState = s.runState.woken

theorem State.atMostWoken.trans {s t u : State} (h : s.atMostWoken t) (k : t.atMostWoken u) : s.atMostWoken u := by
  rcases h with h | h <;> rcases k with k | k <;> simp [State.atMostWoken, h, k]

theorem State.atMostWoken_noticed (s : State) (n : Notice) : s.atMostWoken (s.noticed n) := by
  unfold State.noticed State.atMostWoken; dsimp only; split <;> simp

theorem State.atMostWoken_moved (s : State) (h : Handle) (e : Entry) : s.atMostWoken (s.moved h e) := by
  unfold State.moved State.atMostWoken; dsimp only; split <;> simp

theorem State.atMostWoken.isStarting {s t : State} (h : s.atMostWoken t) : t.runState.isStarting = s.runState.isStarting := by
  rcases h with h | h <;> simp [h]

theorem State.atMostWoken.starting {s t : State} (h : s.atMostWoken t) {ph : Phase} (ht : t.runState = .starting ph) :
    s.runState = .starting ph := by
  rcases h with h | h
  · exact h.symm.trans ht
  · rw [h] at ht; cases hs : s.runState <;> simp_all [RunState.woken]

theorem State.atMostWoken_lowerThreshold (s : State) (g : Seg) (t : Nat) : s.atMostWoken (s.lowerThreshold g t) := by
  have entries (l : List Handle) (u : State) : u.atMostWoken (l.foldl (State.lowerEntry g t) u) := by
    induction l generalizing u with
    | nil => exact .inl rfl
    | cons h l ih =>
      refine State.atMostWoken.trans ?_ (ih _)
      rw [State.lowerEntry_eq]
      split
      · exact State.atMostWoken_moved ..
      · exact .inl rfl
  unfold State.lowerThreshold
  dsimp only
  split
  · rw [State.raise_eq]
    exact (entries ..).trans (State.atMostWoken_noticed ..)
  · exact entries ..

theorem bodySetSegment_range {body : List Byte} {g : Seg} {x : Settings} (h : bodySetSegment body = some (g, x)) :
    1 ≤ x.threshold ∧ x.threshold ≤ 7 := by
  unfold bodySetSegment at h
  split at h
  · split at h
    · split at h
      · rename_i hc
        simp only [Bool.and_eq_true, decide_eq_true_eq] at hc
        simp only [Option.some.injEq, Prod.mk.injEq] at h
        obtain ⟨-, rfl⟩ := h
        exact ⟨by simp only; omega, by simp only; omega⟩
      · cases h
    · cases h
  · cases h

/-- The settings written, with T's lowering (R74, R114). -/
def State.settingsWritten (s : State) (g : Seg) (x : Settings) : State :=
  if x.threshold < s.threshold g then (s.updEngine g (·.write x)).lowerThreshold g x.threshold else s.updEngine g (·.write x)

theorem State.settingsWritten_engine (s : State) (g : Seg) (x : Settings) (k : Seg) :
    (s.settingsWritten g x).engine k = if k = g then (s.engine g).write x else s.engine k := by
  rw [← State.updEngine_engine s g k (·.write x)]
  unfold State.settingsWritten
  split
  · rw [State.lowerThreshold_engine]
  · rfl

theorem State.settingsWritten_queue (s : State) (g : Seg) (x : Settings) (k : Seg) :
    ((s.settingsWritten g x).engine k).queue = (s.engine k).queue := by
  rw [State.settingsWritten_engine]; split
  · subst_vars; rfl
  · rfl

theorem State.settingsWritten_resolution (s : State) (g : Seg) (x : Settings) (k : Seg) :
    ((s.settingsWritten g x).engine k).resolution = (s.engine k).resolution := by
  rw [State.settingsWritten_engine]; split
  · subst_vars; rfl
  · rfl

theorem State.settingsWritten_activity (s : State) (g : Seg) (x : Settings) (k : Seg) :
    ((s.settingsWritten g x).engine k).activity = (s.engine k).activity := by
  rw [State.settingsWritten_engine]; split
  · subst_vars; rfl
  · rfl

theorem State.settingsWritten_threshold (s : State) (g : Seg) (x : Settings) (k : Seg) :
    (s.settingsWritten g x).threshold k = if k = g then x.threshold else s.threshold k := by
  unfold State.threshold
  rw [State.settingsWritten_engine]
  split <;> rfl

theorem State.atMostWoken_settingsWritten (s : State) (g : Seg) (x : Settings) : s.atMostWoken (s.settingsWritten g x) := by
  unfold State.settingsWritten
  split
  · exact State.atMostWoken_lowerThreshold (s.updEngine g (·.write x)) g x.threshold
  · exact .inl rfl

/-- An entry that is SEEDED or PRESENT once the settings are written was so before, and its silence is below the new T. -/
theorem State.settingsWritten_entry {s : State} {g : Seg} {x : Settings} {h : Handle}
    (below : ∀ k : Handle, (s.entry k).state = .seeded ∨ (s.entry k).state = .present →
      (s.entry k).silence < s.threshold (s.entry k).segment)
    (hs : ((s.settingsWritten g x).entry h).state = .seeded ∨ ((s.settingsWritten g x).entry h).state = .present) :
    ((s.settingsWritten g x).entry h).silence <
      if ((s.settingsWritten g x).entry h).segment = g then x.threshold else s.threshold ((s.settingsWritten g x).entry h).segment := by
  unfold State.settingsWritten at hs ⊢
  split at hs
  · rename_i lower
    rw [if_pos lower]
    rw [State.lowerThreshold_entry] at hs ⊢
    split at hs
    · simp at hs
    · rename_i stays
      rw [if_neg stays]
      rw [State.loweredBy_iff] at stays
      split
      · rename_i hg
        exact Nat.lt_of_not_le fun le => stays ⟨hg, hs, le⟩
      · exact below h hs
  · rename_i lower
    rw [if_neg lower]
    split
    · rename_i hg
      have := below h hs
      rw [show (s.entry h).segment = g from hg] at this
      exact Nat.lt_of_lt_of_le this (Nat.le_of_not_lt lower)
    · exact below h hs

theorem State.settingsWritten_entry_free {s : State} {g : Seg} {x : Settings} {h : Handle} (hf : (s.entry h).state = .free) :
    ((s.settingsWritten g x).entry h).state = .free := by
  unfold State.settingsWritten
  split
  · rw [State.lowerThreshold_entry, if_neg]
    · exact hf
    · rw [State.loweredBy_iff, State.updEngine_entry, hf]; simp
  · exact hf

/-- The settings written keep every property, the silences because a lower T lowers its entries. -/
theorem State.Keeps.settingsWritten {s : State} (g : Seg) {x : Settings} (low : 1 ≤ x.threshold) (high : x.threshold ≤ 7) :
    s.Keeps (s.settingsWritten g x) := by
  have lowered : (s.updEngine g (·.write x)).Keeps (s.settingsWritten g x) :=
    .ite (fun _ => .lowerThreshold ..) fun _ => .refl _
  have woken := State.atMostWoken_settingsWritten s g x
  have queue (k : Seg) : ((s.updEngine g (·.write x)).engine k).queue = (s.engine k).queue := by
    rw [State.updEngine_engine]; split
    · subst_vars; rfl
    · rfl
  have resolution (k : Seg) : ((s.updEngine g (·.write x)).engine k).resolution = (s.engine k).resolution := by
    rw [State.updEngine_engine]; split
    · subst_vars; rfl
    · rfl
  exact
    { pending := lowered.pending
      generations := lowered.generations
      bare := lowered.bare
      counts := lowered.counts
      ages := lowered.ages
      identities := lowered.identities
      silences := fun ⟨hT, hbelow, hidle, hfree⟩ => by
        refine ⟨fun k => ?_, fun h hs => ?_, fun hst k => ?_, fun hl h => ?_⟩
        · rw [State.settingsWritten_threshold]; split
          · exact ⟨low, high⟩
          · exact hT k
        · rw [State.settingsWritten_threshold]
          exact State.settingsWritten_entry hbelow hs
        · rw [State.settingsWritten_activity]; exact hidle (woken.isStarting ▸ hst) k
        · exact State.settingsWritten_entry_free (hfree (woken.starting hl) h)
      queues := fun hs => lowered.queues fun k => by rw [queue]; exact hs k
      resolutions := fun hs => lowered.resolutions fun k => by rw [resolution]; exact hs k
      watched := fun p hs => lowered.watched p (by simpa [State.watchedAt] using hs)
      seeding := lowered.seeding
      drained := fun hs => lowered.drained fun hq => by
        obtain ⟨slots, queues⟩ := hs hq
        exact ⟨by simpa using slots, fun k => by rw [queue]; exact queues k⟩ }

theorem State.Keeps.switchOff (s : State) (g : Seg) : s.Keeps (s.switchOff g) := by
  have flushed : s.Keeps ((s.flushQueue g .segmentOff .off id).updEngine g fun e => { e with pollDue := false }) :=
    (State.Keeps.flushQueue _ _ _ _ fun t => .refl t).trans
      (.updEngine_same (fun _ => rfl) (fun _ => rfl) (fun _ => rfl) fun _ => id)
  unfold State.switchOff
  dsimp only
  split
  case h_1 | h_2 =>
    exact (flushed.trans (.endPass ..)).trans (.updEngine_same (fun _ => rfl) (fun _ => rfl) (fun _ => rfl) fun _ => id)
  case h_3 | h_4 => exact flushed.trans (.updEngine_same (fun _ => rfl) (fun _ => rfl) (fun _ => rfl) fun _ => id)
  case h_5 => exact flushed

/-- A SET_SEGMENT that passes its checks writes its settings, then switches the segment on or off. -/
theorem State.applySettings_eq (s : State) (g : Seg) (x : Settings) :
    s.applySettings g x =
      if x.on then
        if (s.engine g).state = .off then (s.settingsWritten g x).updEngine g fun e => { e with state := .idle }
        else s.settingsWritten g x
      else if (s.engine g).settings.on = true ∨ (s.engine g).state = .fault then (s.settingsWritten g x).switchOff g
      else s.settingsWritten g x := by
  unfold State.applySettings State.settingsWritten State.threshold
  dsimp only

theorem State.Keeps.serveSetSegment (s : State) (p : PortId) (body : List Byte) : s.Keeps (serveSetSegment s p body).1 := by
  unfold Machine.serveSetSegment
  split
  · exact .refl s
  · rename_i g x hb
    obtain ⟨low, high⟩ := bodySetSegment_range hb
    have written : s.Keeps (s.settingsWritten g x) := .settingsWritten g low high
    split
    · exact .refl s
    · dsimp only
      rw [State.applySettings_eq]
      refine .ite (fun _ => .ite (fun _ => ?_) fun _ => written) fun _ => .ite (fun _ => ?_) fun _ => written
      · exact written.trans (.updEngine_same (fun _ => rfl) (fun _ => rfl) (fun _ => rfl) fun _ => id)
      · exact written.trans (.switchOff ..)

theorem State.Keeps.serveGetSegment (s : State) (p : PortId) (body : List Byte) : s.Keeps (serveGetSegment s p body).1 := by
  unfold Machine.serveGetSegment
  split <;> exact .refl s

/-! ### The poll timer and the reference clock -/

theorem State.Keeps.recover (s : State) (g : Seg) : s.Keeps (s.recover g) := by
  have back : s.Keeps (s.updEngine g fun e => { e with state := if e.settings.on then .idle else .off }) :=
    .updEngine_same (fun _ => rfl) (fun _ => rfl) (fun _ => rfl) fun _ => id
  unfold State.recover
  exact .ite (fun _ => back.trans (.raise ..)) fun _ => .refl s

theorem State.Keeps.expire (s : State) (g : Seg) : s.Keeps (s.expire g) := by
  have due : s.Keeps (s.updEngine g fun e => { e with pollDue := true }) :=
    .updEngine_same (fun _ => rfl) (fun _ => rfl) (fun _ => rfl) fun _ => id
  have counted (t : State) : t.Keeps (t.updEngine g Engine.countExpiry) := by
    refine .updEngine_same (fun e => ?_) (fun e => ?_) (fun e => ?_) fun e he => ?_ <;> unfold Engine.countExpiry <;>
      (repeat' split) <;> first | rfl | exact he
  unfold State.expire
  split
  case h_1 | h_2 | h_3 =>
    dsimp only
    exact .ite (fun _ => .refl s) fun _ => .ite (fun _ => due.trans (counted _)) fun _ => due
  all_goals exact .refl s

theorem State.Keeps.timerExpires (s : State) (g : Seg) (count : PollCount) : s.Keeps (s.timerExpires g count) := by
  unfold State.timerExpires
  dsimp only
  refine .ite (fun _ => ?_) fun _ => .refl s
  exact (((State.Keeps.updLine ..).trans (.recover ..)).trans (.expire ..)).trans
    (.updEngine_same (fun _ => rfl) (fun _ => rfl) (fun _ => rfl) fun _ => id)

theorem State.Keeps.cycle (s : State) : s.Keeps s.cycle := by
  have engine (g : Seg) : (s.cycle.engine g).settings = (s.engine g).settings ∧ (s.cycle.engine g).queue = (s.engine g).queue ∧
      (s.cycle.engine g).resolution = (s.engine g).resolution ∧ (s.cycle.engine g).activity = (s.engine g).activity := by
    rw [State.cycle_engine]; exact ⟨rfl, rfl, rfl, rfl⟩
  have entry (h : Handle) : s.cycle.entry h = s.entry h := by simp [State.entry]
  have port (p : PortId) : s.cycle.port p = s.port p := by cases p <;> simp [State.port]
  exact
    { pending := State.cycle_pending s
      generations := by simp [State.generationsRun, entry]
      bare := by simp [State.freeEntriesBare, entry]
      counts := by simp [State.countsInRange, entry]
      ages := by simp [State.agesWhileAbsent, entry]
      identities := by simp [State.identitiesDiffer, entry]
      silences := by simp [State.silencesBelowThreshold, State.threshold, entry, engine]
      queues := by simp [State.queuesBounded, engine]
      resolutions := by simp [State.resolutionsDistinct, engine]
      watched := by simp [State.watchedAt, entry, port]
      seeding := by simp [State.seedingInRun]
      drained := by simp [State.quietDrained, State.slot, port, engine] }

/-! ### Every command -/

/-- Every command answers a next state, which keeps what the parts of a command keep. -/
theorem exec_keeps (c : Instr) (s : State) : ∃ t, exec c s = .next t ∧ s.Keeps t := by
  have serve {p : PortId} {k : ReqKind} {f : State → PortId → List Byte → State × Answer}
      (hf : ∀ body, s.Keeps (f s p body).1) : ∃ t, Host.Outcome.next (s.serve p k f) = (.next t : Host.Outcome State Fault Refusal) ∧ s.Keeps t :=
    ⟨_, rfl, .serve p k fun _ => hf⟩
  cases c with
  | exchangeStart p =>
    refine ⟨_, rfl, ?_⟩
    split
    · exact .setPort_lists rfl fun _ => id
    · exact .refl s
  | exchangeEnd p sent =>
    refine ⟨_, rfl, ?_⟩
    split
    · exact .endExchange ..
    · exact .refl s
  | describe | getNotices | findId | findAddr | list | readEntry => exact serve fun _ => .lookup ..
  | clearNotices => exact serve fun _ => .serveClearNotices ..
  | setNoticeMask => exact serve fun _ => .serveSetNoticeMask ..
  | getChanges => exact serve fun _ => .serveGetChanges ..
  | restartFull p => exact ⟨_, rfl, .dispatchRestart _ _ _ (.clearing s)⟩
  | restartRetain p => exact ⟨_, rfl, .dispatchRestart _ _ _ (.retainRestart s)⟩
  | quiet => exact serve fun _ => .serveQuiet ..
  | wake p => exact ⟨_, rfl, .dispatchWake ..⟩
  | seed p => exact ⟨_, rfl, .serve p _ fun out body => .serveSeed out p body⟩
  | seedEnd => exact serve fun _ => .serveSeedEnd ..
  | setLabel => exact serve fun _ => .serveSetLabel ..
  | setStride => exact serve fun _ => .serveSetStride ..
  | claim | unclaim => exact serve fun _ => .serveClaim ..
  | watch | unwatch => exact serve fun _ => .serveWatch ..
  | setSegment => exact serve fun _ => .serveSetSegment ..
  | getSegment => exact serve fun _ => .serveGetSegment ..
  | nodeRead | nodeWrite | broadcast | discover | move | retire => exact ⟨_, rfl, .dispatchLine ..⟩
  | intakeAdmission g =>
    exact ⟨_, rfl, .ite (fun h => .arbitrate ((State.queueHasPlace_iff ..).1 h.2)) fun _ => .refl s⟩
  | pick g => exact ⟨_, rfl, .ite (fun h => .pickWork g h.1) fun _ => .refl s⟩
  | idleGapElapsed => exact ⟨_, rfl, .idleGap ..⟩
  | stuck => exact ⟨_, rfl, .stuckLine ..⟩
  | contention => exact ⟨_, rfl, .contend ..⟩
  | breakRelease => exact ⟨_, rfl, .releaseBreak ..⟩
  | acknowledgeSlot => exact ⟨_, rfl, .acknowledge ..⟩
  | commandFrameSent => exact ⟨_, rfl, .frameSent ..⟩
  | replyWindowTimeout => exact ⟨_, rfl, .replyTimeout ..⟩
  | characterGapTimeout => exact ⟨_, rfl, .gapTimeout ..⟩
  | replyCharacter => exact ⟨_, rfl, .replyChar ..⟩
  | collision => exact ⟨_, rfl, .breakSeen ..⟩
  | contestSlotsEnd => exact ⟨_, rfl, .slotsEnd ..⟩
  | classCharacter => exact ⟨_, rfl, .classChar ..⟩
  | classWindowTimeout => exact ⟨_, rfl, .classTimeout ..⟩
  | pollTimerExpiry => exact ⟨_, rfl, .timerExpires ..⟩
  | drainComplete => exact ⟨_, rfl, .drain s⟩
  | resetTaken => exact ⟨_, rfl, .resetPulse ..⟩
  | powerApplied => exact ⟨_, rfl, .takeReset s⟩
  | resetReleased => exact ⟨_, rfl, .releaseReset s⟩
  | settlingComplete => exact ⟨_, rfl, .settled ..⟩
  | setupReadEnd => exact ⟨_, rfl, .readEnds ..⟩
  | lineReturnsRecessive => exact ⟨_, rfl, .runEnds ..⟩

/-- The queue of commands apart, a command's rest of the queue is no part of what is kept. -/
theorem State.Keeps.dequeued {s t : State} {rest : List Instr} (h : { s with pending := rest }.Keeps t) :
    t.pending = rest ∧ { s with pending := t.pending }.Keeps t := by
  have hp := h.pending
  exact ⟨hp, hp ▸ h⟩

/-- Every step keeps the properties of `Keeps`, the queue of commands apart. -/
theorem step_keeps {s t : State} (h : step s = .next t) : { s with pending := t.pending }.Keeps t := by
  unfold step at h
  split at h
  · cases h
    rw [State.cycle_pending]
    exact .cycle s
  · obtain ⟨u, hu, keeps⟩ := exec_keeps _ _
    rw [hu] at h
    cases h
    exact keeps.dequeued.2

/-! ### The statements -/

/-- Settles O2. -/
theorem everyCommandAnswersNext : Obligations.EveryCommandAnswersNext := by
  intro c s
  obtain ⟨t, ht, keeps⟩ := exec_keeps c s
  exact ⟨t, ht, keeps.pending⟩

/-- Settles O5. -/
theorem generationsNeverBecomeZero : Obligations.GenerationsNeverBecomeZero :=
  fun _ _ hs h => (step_keeps h).generations hs

/-- Settles O6. -/
theorem freeEntriesStayBare : Obligations.FreeEntriesStayBare :=
  fun _ _ hs h => (step_keeps h).bare hs

/-- Settles O7. -/
theorem entryCountsStayInRange : Obligations.EntryCountsStayInRange :=
  fun _ _ counts ages h => ⟨(step_keeps h).counts counts, (step_keeps h).ages ages⟩

/-- Settles O8. -/
theorem identitiesStayDistinct : Obligations.IdentitiesStayDistinct :=
  fun _ _ hs h => (step_keeps h).identities hs

/-- Settles O10. -/
theorem silenceStaysBelowThreshold : Obligations.SilenceStaysBelowThreshold :=
  fun _ _ hs h => (step_keeps h).silences hs

/-- Settles O11. -/
theorem queuesAndResolutionListsStayBounded : Obligations.QueuesAndResolutionListsStayBounded :=
  fun _ _ queues resolutions h => ⟨(step_keeps h).queues queues, (step_keeps h).resolutions resolutions⟩

/-- Settles O13: the change sets of the two ports are kept one by one. -/
theorem changeSetsHoldOnlyWatchedHandles : Obligations.ChangeSetsHoldOnlyWatchedHandles :=
  fun _ _ hs h p => (step_keeps h).watched p (hs p)

/-- Settles O14. -/
theorem seedingWindowStaysInRunAndQuietStaysDrained : Obligations.SeedingWindowStaysInRunAndQuietStaysDrained :=
  fun _ _ seeding drained h => ⟨(step_keeps h).seeding seeding, (step_keeps h).drained drained⟩

/-- Settles O1: a cycle reaches an engine only through its line's filter. -/
theorem stepRunsTheFrontCommand : Obligations.StepRunsTheFrontCommand := by
  refine ⟨fun _ _ _ => rfl, fun s empty => ⟨?_, ?_, fun g => ?_⟩⟩
  · rw [step, empty]
  · unfold State.cycle
    split
    · rfl
    · rename_i stopped
      simp [Prescaler.cycle, stopped]
  · rw [State.cycle_engine]
    have line : (s.cycle.engine g).line =
        { (s.engine g).line with
          level := (s.cycle.engine g).line.level, held := (s.cycle.engine g).line.held,
          recessiveRun := (s.cycle.engine g).line.recessiveRun, dominantRun := (s.cycle.engine g).line.dominantRun } := by
      dsimp only
      rw [← State.cycle_pin s g, ← State.cycle_driving s g, ← State.cycle_attempt s g]
    rw [← line]

end Sys2Proof.Machine
end

section
/-! PROOFS. The state after power is applied has every property (R189, R190). -/

namespace Sys2Proof.Machine

/-! ### The registers of the reset state -/

@[simp] theorem State.reset_runState : State.reset.runState = .starting (.settling false) := rfl

theorem State.reset_entry (h : Handle) : State.reset.entry h = freeEntry 1 false false := by
  simp [State.entry, State.reset]

theorem State.reset_engine (g : Seg) : State.reset.engine g = resetEngine (resetSettings true .roundRobin) := by
  simp [State.engine, State.reset]

theorem State.reset_port (p : PortId) : State.reset.port p = resetPort := by cases p <;> rfl

theorem State.reset_slot (p : PortId) (i : SlotIx) : State.reset.slot p i = .free := by
  simp [State.slot, State.reset_port, resetPort]

theorem State.reset_mapSlot (g : Seg) (a : Byte) : State.reset.mapSlot g a = .empty := by
  unfold State.mapSlot
  split
  · simp [State.reset]
  · rfl

theorem State.reset_queuedSlots (g : Seg) : State.reset.queuedSlots g = [] := by
  rw [State.queuedSlots, State.reset_engine]; rfl

theorem State.reset_carriedSlots (g : Seg) : (State.reset.engine g).carriedSlots = [] := by
  rw [State.reset_engine]; rfl

/-! ### Its properties -/

theorem State.reset_mapsAgree : State.reset.mapsAgree := by
  refine ⟨fun h free => ?_, fun h p t moving => ?_, fun g a _ => ⟨fun h => ⟨?_, ?_⟩, fun hold => ?_⟩, fun g a hold => ?_⟩
  · simp [State.reset_entry, freeEntry, Entry.isFree] at free
  · simp [State.reset_entry, freeEntry] at moving
  · simp [State.reset_mapSlot, State.reset_entry, freeEntry, Entry.isFree]
  · simp [State.reset_mapSlot, State.reset_entry, freeEntry]
  · simp [State.reset_mapSlot] at hold
  · simp [State.reset_engine, Engine.holding, resetEngine] at hold

theorem State.reset_silences : State.reset.silencesBelowThreshold := by
  refine ⟨fun g => ?_, fun h hs => ?_, fun _ g => ?_, fun loading => ?_⟩
  · simp [State.threshold, State.reset_engine, resetEngine, resetSettings]
  · simp [State.reset_entry, freeEntry] at hs
  · simp [State.reset_engine, resetEngine]
  · simp at loading

theorem State.reset_slotsAgree : State.reset.slotsAgree := by
  refine ⟨fun p => ?_, ?_, ?_, fun g x hx => ?_, fun g x hx => ?_⟩
  · simp [PortState.listsAgree, State.reset_port, resetPort]
  · rw [List.flatMap_eq_nil_iff.2 fun g _ => State.reset_queuedSlots g]
    exact List.nodup_nil
  · rw [List.flatMap_eq_nil_iff.2 fun g _ => State.reset_carriedSlots g]
    exact List.nodup_nil
  · simp [State.reset_queuedSlots] at hx
  · simp [State.reset_carriedSlots] at hx

/-- Settles O15: every register of the reset state is one value throughout. -/
theorem powerOnStateHasEveryProperty : Obligations.PowerOnStateHasEveryProperty := by
  refine ⟨rfl, rfl, rfl, fun g => ?_, fun p => rfl, fun h => ?_, fun h => ?_, fun h => ?_, fun h _ => ?_, fun h k free => ?_,
    State.reset_mapsAgree, fun g => ?_, State.reset_silences, fun g => ?_, fun g => ?_, State.reset_slotsAgree, fun p h => ?_,
    fun seeding => ?_, fun quiet => ?_⟩
  · simp [State.reset_engine, resetEngine, resetLine]
  · simp [State.reset_entry, freeEntry]
  · simp [State.reset_entry, freeEntry]
  · simp [State.reset_entry, freeEntry, Entry.countsInRange]
  · simp [State.reset_entry, freeEntry]
  · simp [State.reset_entry, freeEntry, Entry.isFree] at free
  · simp [State.reset_engine, resetEngine, Engine.sound, resetLine]
  · simp [State.reset_engine, resetEngine]
  · simp [State.reset_engine, resetEngine]
  · simp [State.reset_port, resetPort, resetNotices]
  · simp [State.reset] at seeding
  · simp at quiet

end Sys2Proof.Machine
end

section
/-! PROOFS. The prescaler's taps and ticks (R51, R208), the levels of a line, and its filter (R49, R50). -/

namespace Sys2Proof.Machine

/-! ### The prescaler -/

@[simp] theorem Prescaler.cycle_running (x : Prescaler) : x.cycle.running = x.running := by
  unfold Prescaler.cycle; split <;> rfl

theorem Prescaler.cycle_of_running {x : Prescaler} (h : x.running = true) :
    x.cycle = { x with chain := x.chain + 1, group := (x.group + 1) % 98304 } := if_pos h

/-- The prescaler after `n` reference cycles from its start: both dividers have counted them. -/
theorem Prescaler.iterate_start (n : Nat) :
    Nat.iterate Prescaler.cycle n Prescaler.start = { running := true, chain := BitVec.ofNat 10 n, group := n % 98304 } := by
  induction n with
  | zero => rfl
  | succ n ih =>
    rw [Function.iterate_succ_apply', ih, Prescaler.cycle_of_running rfl]
    simp [BitVec.ofNat_add]

/-- A counter's bit `k` repeats every `2 * 2 ^ k` counts, 0 in the first half and 1 in the second. -/
theorem ofNat_getLsbD_iff (n k : Nat) (hk : k < 10) :
    (BitVec.ofNat 10 n).getLsbD k = true ↔ 2 ^ (k + 1) ≤ 2 * (n % 2 ^ (k + 1)) := by
  have split : n % 2 ^ (k + 1) = n % 2 ^ k + 2 ^ k * (n / 2 ^ k % 2) := by rw [pow_succ, Nat.mod_mul]
  have low : n % 2 ^ k < 2 ^ k := Nat.mod_lt _ (by positivity)
  have bit : (BitVec.ofNat 10 n).getLsbD k = decide (n / 2 ^ k % 2 = 1) := by
    rw [BitVec.getLsbD_ofNat, Nat.testBit_eq_decide_div_mod_eq, decide_eq_true hk, Bool.true_and]
  rw [bit, split, pow_succ, decide_eq_true_eq]
  obtain h | h := Nat.mod_two_eq_zero_or_one (n / 2 ^ k) <;> rw [h] <;> omega

theorem Prescaler.tap_iff (n code : Nat) (hc : code ≤ 5) :
    (Nat.iterate Prescaler.cycle n Prescaler.start).tap code = true ↔
      [1024, 512, 256, 128, 64, 32].getD code 0 ≤ 2 * (n % [1024, 512, 256, 128, 64, 32].getD code 0) := by
  have divisor : [1024, 512, 256, 128, 64, 32].getD code 0 = 2 ^ (9 - code + 1) := by
    interval_cases code <;> rfl
  rw [divisor, Prescaler.iterate_start]
  exact ofNat_getLsbD_iff n (9 - code) (by omega)

theorem Prescaler.ticks_iff (n : Nat) :
    (Nat.iterate Prescaler.cycle n Prescaler.start).ticks = true ↔
      (n + 1) % 98304 ∈ [19661, 2 * 19661, 3 * 19661, 4 * 19661, 0] := by
  have count : (Nat.iterate Prescaler.cycle n Prescaler.start).cycle.group = (n + 1) % 98304 := by
    rw [← Function.iterate_succ_apply' Prescaler.cycle, Prescaler.iterate_start]
  rw [Prescaler.ticks, count, Prescaler.iterate_start]
  simp [tickPlaces]

theorem State.cycle_of_stopped {s : State} (h : s.prescaler.running = false) : s.cycle = s := by
  simp [State.cycle, h]

/-- Settles O3: both dividers hold the number of cycles counted. -/
theorem prescalerDividesTheReferenceClock : Obligations.PrescalerDividesTheReferenceClock := by
  refine ⟨fun n code hc => Prescaler.tap_iff n code hc, fun n => ⟨?_, Prescaler.ticks_iff n⟩,
    fun s g => ⟨rfl, fun loading => ?_⟩, fun s empty stopped => ⟨?_, ?_⟩⟩
  · exact congrArg Prescaler.running (Prescaler.iterate_start n)
  · rw [State.setupClock, loading]; rfl
  · simp [Prescaler.ticks, stopped]
  · rw [step, empty, State.cycle_of_stopped stopped]

/-! ### What the part drives -/

theorem State.onWire_dominant_iff (s : State) (g : Seg) (k : Nat) (nodes : List Level) :
    s.onWire g k nodes = .dominant ↔ s.drives g k = .dominant ∨ .dominant ∈ nodes := by
  rw [State.onWire, wired_dominant_iff, List.mem_cons, eq_comm]

/-- A break of the part's own on a line (R49, R63, R71). -/
theorem State.pullsBreak_iff (s : State) (g : Seg) :
    s.pullsBreak g = true ↔ (s.engine g).line.driving = true ∧ s.runState.isStarting = false ∧ (s.segSetup g).fitted = true ∧
      (s.engine g).state ≠ .fault ∧ ((s.engine g).state = .off → Config.breakOutlastsOff g = true) := by
  simp [State.pullsBreak, and_assoc, or_iff_not_imp_left]

theorem State.keepsReleased_iff (s : State) (g : Seg) : s.keepsReleased g = true ↔ s.silenced g := by
  simp [State.keepsReleased, State.silenced, or_assoc]

theorem State.raw_dominant_iff (s : State) (g : Seg) :
    s.raw g = .dominant ↔ s.pullsBreak g = true ∨ (s.engine g).line.pin = .dominant := by
  rw [State.raw, wired_dominant_iff]
  cases s.pullsBreak g <;> simp [eq_comm]

theorem Attempt.sendingBit_iff (a : Attempt) (k : Nat) :
    a.sendingBit k = true ↔
      (a.phase = .address ∧ (a.frame.function.addressed = true → k < 11)) ∨ (a.phase = .body ∧ 11 ≤ k) := by
  cases hp : a.phase <;> simp [Attempt.sendingBit, hp]
  cases a.frame.function.addressed <;> simp

theorem State.drives_dominant_iff (s : State) (g : Seg) (k : Nat) :
    s.drives g k = .dominant ↔ s.pullsBreak g = true ∨
      (¬ s.silenced g ∧ ∃ a, (s.engine g).line.attempt = some a ∧ a.frame.bits[k]? = some false ∧
        ((a.phase = .address ∧ (a.frame.function.addressed = true → k < 11)) ∨ (a.phase = .body ∧ 11 ≤ k))) := by
  rw [← State.keepsReleased_iff]
  unfold State.drives
  by_cases hbreak : s.pullsBreak g = true
  · simp [hbreak]
  · by_cases hkept : s.keepsReleased g = true
    · simp [hbreak, hkept]
    · rw [if_neg hbreak, if_neg hkept, or_iff_right hbreak, and_iff_right hkept]
      cases (s.engine g).line.attempt with
      | none => simp
      | some a =>
        have sent : (a.sends k).getD .recessive = .dominant ↔ a.sends k = some .dominant := by
          cases a.sends k <;> simp
        simp only [sent, Attempt.sends_dominant_iff, Attempt.sendingBit_iff, Option.some.injEq, exists_eq_left']
        exact and_comm

/-! ### The filter over several cycles -/

/-- The cycles of a quarter bit time by rate code (R50, R51). -/
theorem quarterBit_eq {code : Nat} (h : code ≤ 5) : quarterBit code = [256, 128, 64, 32, 16, 8].getD code 0 := by
  interval_cases code <;> rfl

@[simp] theorem State.cycle_segSetup (s : State) (g : Seg) : s.cycle.segSetup g = s.segSetup g := by simp [State.segSetup]

/-- A running prescaler runs on, and every cycle samples the line of a fitted segment against the same raw level. -/
theorem State.iterate_cycle {s : State} {g : Seg} (run : s.prescaler.running = true) (fit : (s.segSetup g).fitted = true) (n : Nat) :
    ((Nat.iterate State.cycle n s).engine g).line =
      Nat.iterate (Line.sample (quarterBit (s.segSetup g).rate) (s.raw g)) n (s.engine g).line := by
  induction n generalizing s with
  | zero => rfl
  | succ n ih =>
    rw [Function.iterate_succ_apply, ih (by simpa using run) (by simpa using fit), Function.iterate_succ_apply,
      State.cycle_line s g run fit, State.cycle_segSetup, State.cycle_raw]

/-- A line that agrees with the raw level holds no new value. -/
theorem Line.iterate_sample_same {q : Nat} {l : Line} {n : Nat} (hn : 1 ≤ n) :
    Nat.iterate (Line.sample q l.level) n l = { l with held := 0 } := by
  obtain ⟨n, rfl⟩ := Nat.exists_eq_add_of_le' hn
  rw [Function.iterate_succ_apply]
  rw [show l.sample q l.level = { l with held := 0 } from if_pos rfl]
  exact Function.iterate_fixed (show Line.sample q l.level { l with held := 0 } = _ from if_pos rfl) n

/-- A new value is counted up to the cycle before the quarter bit time. -/
theorem Line.iterate_sample_below {q : Nat} {raw : Level} {l : Line} (new : raw ≠ l.level) (h0 : l.held = 0) {n : Nat}
    (hn : n < q) : Nat.iterate (Line.sample q raw) n l = { l with held := n } := by
  induction n with
  | zero => exact congrArg (fun n => { l with held := n }) h0
  | succ n ih =>
    rw [Function.iterate_succ_apply', ih (by omega), Line.sample, if_neg new, if_pos hn]

/-- From the quarter bit time on the line shows the new value. -/
theorem Line.iterate_sample_reached {q : Nat} {raw : Level} {l : Line} (new : raw ≠ l.level) (h0 : l.held = 0) (pos : 0 < q)
    {n : Nat} (hn : q ≤ n) :
    Nat.iterate (Line.sample q raw) n l = { l with level := raw, held := 0, recessiveRun := 0, dominantRun := 0 } := by
  have turn : Nat.iterate (Line.sample q raw) q l = { l with level := raw, held := 0, recessiveRun := 0, dominantRun := 0 } := by
    obtain ⟨q, rfl⟩ := Nat.exists_eq_add_of_le' pos
    rw [Function.iterate_succ_apply', Line.iterate_sample_below new h0 (Nat.lt_succ_self q), Line.sample, if_neg new,
      if_neg (Nat.lt_irrefl _)]
  obtain ⟨m, rfl⟩ := Nat.exists_eq_add_of_le' hn
  rw [Function.iterate_add_apply, turn]
  exact Function.iterate_fixed
    (show Line.sample q raw { l with level := raw, held := 0, recessiveRun := 0, dominantRun := 0 } = _ from if_pos rfl) m

/-- Settles O4: the levels bit by bit, and the filter by counting its cycles. -/
theorem linesAreWiredAndFollowAfterAQuarterBit : Obligations.LinesAreWiredAndFollowAfterAQuarterBit := by
  refine ⟨fun s g k nodes => ⟨s.onWire_dominant_iff g k nodes, ?_, ?_⟩, fun s g run fit code => ?_⟩
  · rw [State.drives_dominant_iff, State.pullsBreak_iff]
  · rw [State.raw_dominant_iff, State.pullsBreak_iff]
  · intro l quarter after
    have reads (n : Nat) : after n = Nat.iterate (Line.sample quarter (s.raw g)) n l := by
      rw [show after n = _ from State.iterate_cycle run fit n, quarterBit_eq code]
    have pos : 0 < quarter := by
      change 0 < [256, 128, 64, 32, 16, 8].getD (s.segSetup g).rate 0
      interval_cases (s.segSetup g).rate <;> simp
    refine ⟨fun same n hn => ?_, fun new h0 n => ⟨fun hn => ?_, fun hn => ?_⟩⟩
    · rw [reads, same, Line.iterate_sample_same hn]
    · rw [reads, Line.iterate_sample_below new h0 hn]
    · rw [reads, Line.iterate_sample_reached new h0 pos hn]

end Sys2Proof.Machine
end

section
/-! PROOFS. The end of an exchange: the frame checks, the judgement, and the removal of a delivered response (R163 to R169). -/

namespace Sys2Proof.Machine

/-! ### The frame checks -/

@[simp] theorem kindOf_kindCode (k : ReqKind) : kindOf (kindCode k) = some k := by cases k <;> rfl

theorem kindCode_ne_zero (k : ReqKind) : kindCode k ≠ 0 := by cases k <;> decide

/-- The bytes of an exchange are its whole bytes. -/
theorem bytesOfBits_cut (bytes : List Byte) {cut : List Bool} (h : cut.length < 8) :
    bytesOfBits (bytes.flatMap byteBits ++ cut) = bytes := by
  rw [bytesOfBits_flatMap, bytesOfBits_short cut h, List.append_nil]

theorem judgeFrame_unknown {k : Byte} (h0 : k ≠ 0) (hk : kindOf k = none) (more : List Byte) : judgeFrame (k :: more) = .bad := by
  simp only [judgeFrame, h0, if_false, hk]

theorem judgeFrame_headless {k : Byte} (h0 : k ≠ 0) {more : List Byte} (short : more.length < 2) :
    judgeFrame (k :: more) = .bad := by
  match more, short with
  | [], _ => cases hk : kindOf k <;> simp only [judgeFrame, h0, if_false, hk]
  | [tag], _ => cases hk : kindOf k <;> simp only [judgeFrame, h0, if_false, hk]

/-- A length byte above 40, or fewer bytes than the length and the CRC ask for. -/
theorem judgeFrame_length {k : Byte} (h0 : k ≠ 0) (tag : Byte) {len : Byte} {more : List Byte}
    (bad : 40 < len.toNat ∨ more.length < len.toNat + 2) : judgeFrame (k :: tag :: len :: more) = .bad := by
  cases hk : kindOf k with
  | none => exact judgeFrame_unknown h0 hk _
  | some kind =>
    simp only [judgeFrame, h0, if_false, hk]
    split
    · rfl
    · rename_i small
      split
      · rename_i hd
        have := congrArg List.length hd
        simp only [List.length_drop, List.length_cons] at this
        omega
      · rfl

/-- A whole frame of a known kind: its CRC decides. -/
theorem judgeFrame_whole {k : Byte} (h0 : k ≠ 0) {kind : ReqKind} (hk : kindOf k = some kind) (tag : Byte) {len : Byte}
    {body : List Byte} (hlen : body.length = len.toNat) (small : body.length ≤ 40) (hi lo : Byte) (more : List Byte) :
    judgeFrame (k :: tag :: len :: (body ++ hi :: lo :: more)) =
      if crc (k :: tag :: len :: body) = word16 hi lo then .frame { kind := kind, tag := tag, body := body } else .bad := by
  have small' : ¬ 40 < body.length := by omega
  simp only [judgeFrame, h0, if_false, hk, ← hlen, small', List.drop_left, List.take_left]

theorem judgeFrame_crc {k : Byte} (h0 : k ≠ 0) (tag : Byte) {len : Byte} {body : List Byte} (hlen : body.length = len.toNat)
    {hi lo : Byte} (wrong : (hi ++ lo : BitVec 16) ≠ crc (k :: tag :: len :: body)) (more : List Byte) :
    judgeFrame (k :: tag :: len :: (body ++ hi :: lo :: more)) = .bad := by
  cases hk : kindOf k with
  | none => exact judgeFrame_unknown h0 hk _
  | some kind =>
    by_cases small : body.length ≤ 40
    · rw [judgeFrame_whole h0 hk tag hlen small]
      exact if_neg (Ne.symm wrong)
    · exact judgeFrame_length h0 tag (.inl (by omega))

/-- A request frame passes the frame checks, whatever follows it. -/
theorem judgeFrame_requestFrame (k : ReqKind) (tag : Byte) {body : List Byte} (small : body.length ≤ 40) (more : List Byte) :
    judgeFrame (requestFrame k tag body ++ more) = .frame { kind := k, tag := tag, body := body } := by
  have hlen : body.length = (byte body.length).toNat := by simp [byte]; omega
  have frame : requestFrame k tag body ++ more =
      kindCode k :: tag :: byte body.length :: (body ++
        (crc (kindCode k :: tag :: byte body.length :: body)).extractLsb' 8 8 ::
          (crc (kindCode k :: tag :: byte body.length :: body)).extractLsb' 0 8 :: more) := by
    simp [requestFrame, bytes16]
  rw [frame, judgeFrame_whole (kindCode_ne_zero k) (kindOf_kindCode k) tag hlen small, if_pos (word16_bytes _).symm]

/-! ### The end of an exchange -/

theorem exec_exchangeEnd {s : State} {p : PortId} {x : Exchange} (hx : (s.port p).exchange = some x) (sent : List Bool) :
    exec (.exchangeEnd p sent) s = .next (s.endExchange p x sent) := by
  change execExchangeEnd p sent s = _
  simp only [execExchangeEnd, hx]

/-- The end of an exchange is its judgement on the state in which its response has been removed. -/
theorem State.endExchange_of_judge {s u : State} {p : PortId} {x : Exchange} {sent : List Bool} {o : ExchangeOutcome}
    (h : (s.setPort p (s.delivered p x sent.length)).judge p sent = (u, o)) :
    s.endExchange p x sent = u.setPort p { u.port p with previous := o, exchange := none } := by
  unfold State.endExchange
  rw [State.deliver_eq]
  dsimp only
  rw [h, State.updPort_eq]
  rfl

/-- A judgement that takes nothing writes the previous outcome alone. -/
theorem State.endExchange_refused {s : State} {p : PortId} {x : Exchange} {sent : List Bool} {o : ExchangeOutcome}
    (h : ∀ u : State, u.runState = s.runState → u.port p = s.delivered p x sent.length → u.judge p sent = (u, o)) :
    s.endExchange p x sent =
      s.setPort p { s.delivered p x sent.length with previous := o, exchange := none } := by
  rw [State.endExchange_of_judge (h _ (by simp) (by simp)), State.setPort_port_same, State.setPort_setPort]

theorem State.judge_nothing {s : State} {p : PortId} {sent : List Bool}
    (h : sent.length < 8 ∨ ∃ more, sent = byteBits 0 ++ more) : s.judge p sent = (s, .none) := by
  have none : judgeFrame (bytesOfBits sent) = .nothing := by
    rcases h with h | ⟨more, rfl⟩
    · rw [bytesOfBits_short sent h]; rfl
    · rw [bytesOfBits_byteBits, judgeFrame_zero]
  simp only [State.judge, none]

theorem State.judge_bad {s : State} {p : PortId} {sent : List Bool} (h : judgeFrame (bytesOfBits sent) = .bad) :
    s.judge p sent = (s, .badFrame) := by simp only [State.judge, h]

theorem State.judge_frame {s : State} {p : PortId} {sent : List Bool} {f : TakenFrame}
    (h : judgeFrame (bytesOfBits sent) = .frame f) : s.judge p sent = s.takeFrame p f := by simp only [State.judge, h]

theorem PortState.firstFree_eq_none {x : PortState} (h : ∀ i : SlotIx, x.slots[i] ≠ .free) : x.firstFree = none := by
  rw [PortState.firstFree, List.find?_eq_none]
  intro i _
  simpa using h i

theorem PortState.firstFree_eq_some {x : PortState} (h : ∃ i : SlotIx, x.slots[i] = .free) :
    ∃ i : SlotIx, x.slots[i] = .free ∧ x.firstFree = some i := by
  obtain ⟨j, hj⟩ := h
  obtain ⟨i, hi⟩ := Option.isSome_iff_exists.1
    (List.find?_isSome.2 ⟨j, List.mem_finRange j, by simpa using hj⟩ : x.firstFree.isSome = true)
  exact ⟨i, by simpa using List.find?_some hi, hi⟩

/-- A frame that the run state does not let in (R166). -/
theorem State.takeFrame_notNow {s : State} {p : PortId} {f : TakenFrame} (h : s.runState.takes f.kind = false) :
    s.takeFrame p f = (s, .notNow) := if_pos h

/-- The state in which a frame's request takes its slot: a WAKE has returned the run state to RUN (R206). -/
def State.awake (s : State) (k : ReqKind) : State := if k = .wake then s.wake else s

theorem State.awake_port (s : State) (k : ReqKind) (p : PortId) : (s.awake k).port p = s.port p := by
  unfold State.awake; split <;> simp

theorem State.takeFrame_full {s : State} {p : PortId} {f : TakenFrame} (h : s.runState.takes f.kind = true)
    (hk : f.kind ≠ .portReset) (full : ∀ i : SlotIx, (s.port p).slots[i] ≠ .free) :
    s.takeFrame p f = (s.awake f.kind, .full) := by
  have none : ((s.awake f.kind).port p).firstFree = none := by
    rw [State.awake_port]; exact PortState.firstFree_eq_none full
  unfold State.takeFrame
  rw [if_neg (by simp [h]), if_neg hk]
  dsimp only
  rw [show (if f.kind = .wake then s.wake else s) = s.awake f.kind from rfl, none]

theorem State.takeFrame_taken {s : State} {p : PortId} {f : TakenFrame} {i : SlotIx} (h : s.runState.takes f.kind = true)
    (hk : f.kind ≠ .portReset) (free : (s.port p).firstFree = some i) :
    s.takeFrame p f =
      ((s.awake f.kind).setPort p ((s.port p).take i
        { kind := f.kind, tag := f.tag, body := f.body, woke := if f.kind = .wake then s.runState.woke else .run }), .taken) := by
  have some : ((s.awake f.kind).port p).firstFree = some i := by rw [State.awake_port]; exact free
  unfold State.takeFrame
  rw [if_neg (by simp [h]), if_neg hk]
  dsimp only
  rw [show (if f.kind = .wake then s.wake else s) = s.awake f.kind from rfl, some]
  dsimp only
  rw [State.updPort_eq, State.awake_port]

/-! ### The removal -/

theorem State.delivered_removed {s : State} {p : PortId} {x : Exchange} {n : Nat} {i : SlotIx} {q : Request} {r : Response}
    (hi : x.slot = some i) (hr : x.response = some r) (hs : s.slot p i = .completed q r) (hn : 8 * (8 + r.body.length) ≤ n)
    (settled : s.runState.isSettling = false) :
    s.delivered p x n =
      { s.port p with slots := (s.port p).slots.set i .free, completed := (s.port p).completed.filter (· != i) } := by
  simp [State.delivered, hi, hr, hs, hn, settled, Slot.response?]

theorem State.delivered_none {s : State} {p : PortId} {x : Exchange} {n : Nat}
    (h : x.slot = none ∨ x.response = none ∨ s.runState.isSettling = true ∨
      ∃ (i : SlotIx) (r : Response), x.slot = some i ∧ x.response = some r ∧
        ((s.slot p i).response? ≠ some r ∨ n < 8 * (8 + r.body.length))) :
    s.delivered p x n = s.port p := by
  unfold State.delivered
  rcases h with h | h | h | ⟨i, r, hi, hr, h⟩
  · simp only [h]
  · cases hx : x.slot <;> simp only [h]
  · cases hx : x.slot <;> cases hy : x.response <;> simp [h]
  · simp only [hi, hr]
    refine if_neg ?_
    rintro ⟨hold, long, -⟩
    rcases h with h | h
    · exact h hold
    · omega

/-- Settles O17: the judgement of what is no request, over the removal. -/
theorem exchangeEndRemovesDeliveredResponse : Obligations.ExchangeEndRemovesDeliveredResponse := by
  intro s p x sent hx nothing
  have ends : s.endExchange p x sent = s.setPort p { s.delivered p x sent.length with previous := .none, exchange := none } :=
    State.endExchange_refused fun _ _ _ => State.judge_nothing nothing
  refine ⟨fun i q r hi hr hs long settled => ?_, fun kept => ?_⟩
  · rw [exec_exchangeEnd hx, ends, State.delivered_removed hi hr hs long settled]
  · rw [exec_exchangeEnd hx, ends, State.delivered_none kept]

/-- Settles O18: each failing check is a verdict of the frame checks or of the run state. -/
theorem refusedFramesChangeOnlyPreviousOutcome : Obligations.RefusedFramesChangeOnlyPreviousOutcome := by
  intro s p x bytes cut hx short sent y ends
  have read : bytesOfBits sent = bytes := bytesOfBits_cut bytes short
  have refused {o : ExchangeOutcome}
      (h : ∀ u : State, u.runState = s.runState → u.port p = y → u.judge p sent = (u, o)) : ends o := by
    change exec (.exchangeEnd p sent) s = _
    rw [exec_exchangeEnd hx, State.endExchange_refused h]
  have bad (h : judgeFrame bytes = .bad) : ends .badFrame := refused fun _ _ _ => State.judge_bad (by rw [read, h])
  refine ⟨?_, ?_, ?_, ?_, ?_, ?_⟩
  · rintro k more hb h0 hk
    exact bad (hb ▸ judgeFrame_unknown h0 hk more)
  · rintro k hb h0
    exact bad (hb ▸ judgeFrame_headless h0 (by simp))
  · rintro k tag hb h0
    exact bad (hb ▸ judgeFrame_headless h0 (by simp))
  · rintro k tag len more hb h0 h
    exact bad (hb ▸ judgeFrame_length h0 tag h)
  · rintro k tag len body hi lo more hb h0 hlen wrong
    exact bad (hb ▸ judgeFrame_crc h0 tag hlen wrong more)
  · rintro k tag body more hb small
    have frame : judgeFrame (bytesOfBits sent) = .frame { kind := k, tag := tag, body := body } := by
      rw [read, hb, judgeFrame_requestFrame k tag small]
    refine ⟨fun h => refused fun u hu _ => ?_, fun hrun hk full => refused fun u hu hy => ?_⟩
    · rw [State.judge_frame frame, State.takeFrame_notNow]
      rw [hu]
      rcases h with h | ⟨h, hk⟩ <;> cases hs : s.runState <;> simp_all [RunState.takes, RunState.isStarting]
    · have hu' : u.runState = .run := hu.trans hrun
      have same : u.awake k = u := by unfold State.awake; split <;> simp [State.wake, hu']
      rw [State.judge_frame frame, State.takeFrame_full (by simp [hu', RunState.takes]) hk (by rw [hy]; exact full), same]

/-- Settles O19: the judgement of a frame that the run state lets in, by whether a slot is FREE. -/
theorem takenFrameWaitsInFreeSlot : Obligations.TakenFrameWaitsInFreeSlot := by
  intro s p x k tag body more w hx hk small hw sent y
  have frame : judgeFrame (bytesOfBits sent) = .frame { kind := k, tag := tag, body := body } := by
    rw [bytesOfBits_flatMap, judgeFrame_requestFrame k tag small]
  have takes (z : PortState) : (s.setPort p z).runState.takes k = true := by
    rcases hw with ⟨hr, -⟩ | ⟨rfl, ⟨hr, -⟩ | ⟨hr, -⟩⟩ <;> simp [hr, RunState.takes]
  have woke (z : PortState) : (if k = .wake then (s.setPort p z).runState.woke else .run) = w := by
    rcases hw with ⟨hr, rfl⟩ | ⟨rfl, ⟨hr, rfl⟩ | ⟨hr, rfl⟩⟩ <;> simp [hr, RunState.woke]
  have woken : (s.setPort p y).wake = { s.setPort p y with runState := .run } := by
    rw [State.wake_eq]
    rcases hw with ⟨hr, -⟩ | ⟨-, ⟨hr, -⟩ | ⟨hr, -⟩⟩ <;> simp [hr, RunState.woken]
  have awake : (s.setPort p y).awake k = { s.setPort p y with runState := .run } := by
    unfold State.awake
    split
    · exact woken
    · rename_i other
      obtain ⟨hr, -⟩ := hw.resolve_right fun h => other h.1
      rw [← hr, ← State.setPort_runState s p y]
  have writes (z : PortState) : ({ s.setPort p y with runState := .run } : State).setPort p z =
      { s.setPort p z with runState := .run } := by cases p <;> rfl
  have port : ({ s.setPort p y with runState := .run } : State).port p = y := by cases p <;> rfl
  refine ⟨fun full => ?_, fun free => ?_⟩
  · have judged : (s.setPort p y).judge p sent = ({ s.setPort p y with runState := .run }, .full) := by
      rw [State.judge_frame frame, State.takeFrame_full (takes y) hk (by rw [State.setPort_port_same]; exact full), awake]
    rw [exec_exchangeEnd hx, State.endExchange_of_judge judged, writes, port]
  · obtain ⟨i, hi, first⟩ := PortState.firstFree_eq_some free
    have judged := State.judge_frame (s := s.setPort p y) (p := p) frame
    rw [State.takeFrame_taken (takes y) hk (by rw [State.setPort_port_same]; exact first), awake, State.setPort_port_same,
      woke, writes] at judged
    refine ⟨i, hi, ?_⟩
    rw [exec_exchangeEnd hx, State.endExchange_of_judge judged]
    cases p <;> rfl

end Sys2Proof.Machine
end

section
/-! PROOFS. DESCRIBE and the lookups by identity and address (R22, R23, R174); bodies that do not suit their kind (R30, R210), and
the checks of a request that names an entry (R29 to R36, R90). -/

namespace Sys2Proof.Machine

/-! ### DESCRIBE, FIND_ID and FIND_ADDR -/

/-- The one entry that holds an identity is found. -/
theorem State.holder_of_unique {s : State} {w : Ident} {h : Handle} (held : (s.entry h).state ≠ .free)
    (id : (s.entry h).identity = w)
    (only : ∀ k : Handle, (s.entry k).state ≠ .free → (s.entry k).identity = w → k = h) : s.holder w = some h := by
  cases hw : s.holder w with
  | none => exact absurd id ((s.holder_eq_none_iff w).1 hw h ((Entry.isFree_false_iff _).2 held))
  | some k =>
    obtain ⟨free, same⟩ := State.holder_eq_some hw
    exact congrArg some (only k ((Entry.isFree_false_iff _).1 free) same)

theorem State.holder_of_unheld {s : State} {w : Ident} (h : ∀ k : Handle, (s.entry k).state = .free ∨ (s.entry k).identity ≠ w) :
    s.holder w = none :=
  (s.holder_eq_none_iff w).2 fun k hk => (h k).resolve_left ((Entry.isFree_false_iff _).1 hk)

/-- A segment set of four segments, bit by bit. -/
theorem segmentSet_getLsbD (f : Seg → Bool) :
    (∀ g : Seg, (allSegments.foldl (fun acc g => if f g then acc ||| (1#8 <<< g.val) else acc) 0).getLsbD g.val = f g) ∧
      (allSegments.foldl (fun acc g => if f g then acc ||| (1#8 <<< g.val) else acc) 0).toNat < 16 := by
  have bits : ∀ f0 f1 f2 f3 : Bool,
      let m := allSegments.foldl (fun acc g => if ![f0, f1, f2, f3] g then acc ||| (1#8 <<< g.val) else acc) 0
      (∀ g : Seg, m.getLsbD g.val = ![f0, f1, f2, f3] g) ∧ m.toNat < 16 := by decide
  have all : f = ![f 0, f 1, f 2, f 3] := by
    funext g
    fin_cases g <;> rfl
  rw [all]
  exact bits ..

theorem isIdentity_iff (x : Ident) : isIdentity x = true ↔ x ≠ 0 ∧ x ≠ BitVec.allOnes 48 := by simp [isIdentity]

theorem isAddress_iff (b : Byte) : isAddress b = true ↔ 1 ≤ b.toNat ∧ b.toNat ≤ 200 := by simp [isAddress]

theorem one_le_toNat {b : Byte} : 1 ≤ b.toNat ↔ b ≠ 0 := by
  rw [Nat.one_le_iff_ne_zero, ne_eq, ne_eq, ← BitVec.toNat_inj]
  rfl

theorem isAddress_false {b : Byte} (h : b = 0 ∨ 200 < b.toNat) : isAddress b = false := by
  rw [Bool.eq_false_iff, ne_eq, isAddress_iff, one_le_toNat]
  rintro ⟨h0, h1⟩
  rcases h with h | h
  · exact h0 h
  · omega

theorem isAddress_true {b : Byte} (h0 : b ≠ 0) (h1 : b.toNat ≤ 200) : isAddress b = true :=
  (isAddress_iff b).2 ⟨one_le_toNat.2 h0, h1⟩

theorem bodyFindId_identBytes (x : Ident) : bodyFindId (identBytes x) = if isIdentity x then some x else none := by
  simp only [identBytes, bodyFindId, identOf_identBytes]

theorem bodyFindAddr_none {b a : Byte} (h : 3 < b.toNat ∨ a = 0 ∨ 200 < a.toNat) : bodyFindAddr [b, a] = none := by
  rcases h with h | h
  · simp [bodyFindAddr, segOf_none b h]
  · simp only [bodyFindAddr, isAddress_false h]
    split <;> simp

theorem bodyFindAddr_some {g : Seg} {a : Byte} (h0 : a ≠ 0) (h1 : a.toNat ≤ 200) :
    bodyFindAddr [byte g.val, a] = some (g, a) := by
  simp [bodyFindAddr, isAddress_true h0 h1]

theorem exec_describe (p : PortId) (s : State) :
    exec (.describe p) s = .next (s.serve p .describe (lookup bodyNone answerDescribe)) := rfl

theorem exec_findId (p : PortId) (s : State) :
    exec (.findId p) s = .next (s.serve p .findId (lookup bodyFindId answerFindId)) := rfl

theorem exec_findAddr (p : PortId) (s : State) :
    exec (.findAddr p) s = .next (s.serve p .findAddr (lookup bodyFindAddr answerFindAddr)) := rfl

theorem bodyNone_of_ne {body : List Byte} (h : body ≠ []) : bodyNone body = none := by
  cases body with
  | nil => exact absurd rfl h
  | cons b body => rfl

/-- Settles O21: each answer is the one of its lookup. -/
theorem describeFindIdAndFindAddrAnswer : Obligations.DescribeFindIdAndFindAddrAnswer := by
  refine ⟨fun s p i r rest hd hk => ⟨fun hb => ?_, fun hb => ⟨s.fittedSet, ?_, ?_, ?_⟩⟩,
    fun s p i r rest x hd hk hb => ⟨fun bad => ?_, fun h0 h1 => ?_⟩, fun s p i r rest b a hd hk hb => ⟨fun bad => ?_, ?_⟩⟩
  · rw [exec_describe, State.serve_lookup_unsuited hd hk answerDescribe (bodyNone_of_ne hb)]
  · exact (segmentSet_getLsbD fun g => (s.segSetup g).fitted).1
  · exact (segmentSet_getLsbD fun g => (s.segSetup g).fitted).2
  · rw [exec_describe, State.serve_lookup_suited hd hk answerDescribe (by rw [hb]; rfl)]
    cases p <;> cases hl : s.setup.loaded <;> simp [answerDescribe, boolByte, hl]
  · have unsuited : isIdentity x = false := by
      rcases bad with rfl | rfl <;> rfl
    rw [exec_findId, State.serve_lookup_unsuited hd hk answerFindId (by rw [hb, bodyFindId_identBytes, unsuited]; rfl)]
  · have suited : bodyFindId r.body = some x := by
      rw [hb, bodyFindId_identBytes, if_pos ((isIdentity_iff x).2 ⟨h0, h1⟩)]
    refine ⟨fun unheld => ?_, fun h held id only => ?_⟩
    · rw [exec_findId, State.serve_lookup_suited hd hk answerFindId suited, answerFindId, State.holder_of_unheld unheld]
      rfl
    · rw [exec_findId, State.serve_lookup_suited hd hk answerFindId suited, answerFindId, State.holder_of_unique held id only]
      rfl
  · rw [exec_findAddr, State.serve_lookup_unsuited hd hk answerFindAddr (by rw [hb, bodyFindAddr_none bad])]
  · rintro g rfl h0 h1
    rw [exec_findAddr, State.serve_lookup_suited hd hk answerFindAddr (by rw [hb, bodyFindAddr_some h0 h1])]
    cases hm : s.mapSlot g a <;> simp [answerFindAddr, hm, handleByte, Answer.bare]

/-! ### The length of a body that suits its kind -/

/-- A body has a length that its kind takes (R210). -/
def ReqKind.fits (k : ReqKind) (body : List Byte) : Prop :=
  k.bodyLengths.1 ≤ body.length ∧ body.length ≤ k.bodyLengths.2

theorem eq_none_of_unfit {β : Type} {parse : List Byte → Option β} {k : ReqKind} {body : List Byte}
    (len : ∀ x, parse body = some x → k.fits body)
    (h : body.length < k.bodyLengths.1 ∨ k.bodyLengths.2 < body.length) : parse body = none := by
  cases hp : parse body with
  | none => rfl
  | some x =>
    obtain ⟨low, high⟩ := len x hp
    omega

theorem bodyNone_length {b : List Byte} {x : Unit} (h : bodyNone b = some x) : b.length = 0 := by
  unfold bodyNone at h; split at h <;> simp_all

theorem bodyNoticeSet_length {b : List Byte} {x : BitVec 13} (h : bodyNoticeSet b = some x) : b.length = 2 := by
  unfold bodyNoticeSet at h; split at h <;> simp_all

theorem bodyByte_length {b : List Byte} {x : Byte} (h : bodyByte b = some x) : b.length = 1 := by
  unfold bodyByte at h; split at h <;> simp_all

theorem bodySegment_length {b : List Byte} {x : Seg} (h : bodySegment b = some x) : b.length = 1 := by
  unfold bodySegment at h; split at h <;> simp_all

theorem bodyRestart_length {b : List Byte} {x : RestartKind} (h : bodyRestart b = some x) : b.length = 1 := by
  unfold bodyRestart at h; split at h <;> simp_all

theorem bodySeed_length {b : List Byte} {x : SeedBody} (h : bodySeed b = some x) : b.length = 12 := by
  unfold bodySeed at h; split at h <;> simp_all

theorem bodyFindId_length {b : List Byte} {x : Ident} (h : bodyFindId b = some x) : b.length = 6 := by
  unfold bodyFindId at h; split at h <;> simp_all

theorem bodyFindAddr_length {b : List Byte} {x : Seg × Byte} (h : bodyFindAddr b = some x) : b.length = 2 := by
  unfold bodyFindAddr at h; split at h <;> simp_all

theorem bodyList_length {b : List Byte} {x : ListBody} (h : bodyList b = some x) : b.length = 5 := by
  unfold bodyList at h; split at h <;> simp_all

theorem bodySetLabel_length {b : List Byte} {x : LabelBody} (h : bodySetLabel b = some x) : b.length = 5 := by
  unfold bodySetLabel at h; split at h <;> simp_all

theorem bodySetStride_length {b : List Byte} {x : StrideBody} (h : bodySetStride b = some x) : b.length = 3 := by
  unfold bodySetStride at h; split at h <;> simp_all

theorem bodySetSegment_length {b : List Byte} {x : Seg × Settings} (h : bodySetSegment b = some x) : b.length = 9 := by
  unfold bodySetSegment at h; split at h <;> simp_all

theorem dataOk_iff (d : List Byte) : dataOk d = true ↔ 1 ≤ d.length ∧ d.length ≤ 32 := by simp [dataOk]

theorem bodyLine_fits {k : ReqKind} {b : List Byte} {x : LineReq} (h : bodyLine k b = some x) : k.fits b := by
  unfold bodyLine at h
  split at h
  case h_1 | h_4 | h_5 | h_6 => exact ⟨Nat.le_refl _, Nat.le_refl _⟩
  case h_2 | h_3 =>
    split at h
    · rename_i hd
      obtain ⟨low, high⟩ := (dataOk_iff _).1 hd
      simp only [ReqKind.fits, ReqKind.bodyLengths, List.length_cons]
      omega
    · cases h
  case h_7 => cases h

/-! ### The dispatches of an unsuited body -/

theorem State.dispatchLine_unsuited {s : State} {p : PortId} {i : SlotIx} {r : Request} {rest : List SlotIx} {k : ReqKind}
    (hd : s.heads p i r rest) (hk : r.kind = k) (hb : bodyLine k r.body = none) :
    s.dispatchLine p k = s.answered p i r rest .badRequest 0 [] := by
  rw [State.dispatchLine, State.dispatch_of_heads hd hk, hk, hb]
  exact State.finish_head s badRequest hd.2.1 hd.2.2.1 hd.2.2.2.1

theorem State.dispatchRestart_unsuited {s : State} {p : PortId} {i : SlotIx} {r : Request} {rest : List SlotIx}
    (hd : s.heads p i r rest) (hk : r.kind = .restart) (hb : bodyRestart r.body = none) (k : RestartKind) (f : State → State) :
    s.dispatchRestart p k f = s.answered p i r rest .badRequest 0 [] := by
  rw [State.dispatchRestart, State.dispatch_of_heads hd hk, hb]
  exact State.finish_head s badRequest hd.2.1 hd.2.2.1 hd.2.2.2.1

theorem State.dispatchWake_unsuited {s : State} {p : PortId} {i : SlotIx} {r : Request} {rest : List SlotIx}
    (hd : s.heads p i r rest) (hk : r.kind = .wake) (hb : bodyNone r.body = none) :
    s.dispatchWake p = s.answered p i r rest .badRequest 0 [] := by
  rw [State.dispatchWake, State.dispatch_of_heads hd hk, hb]
  exact State.finish_head s badRequest hd.2.1 hd.2.2.1 hd.2.2.2.1

/-- A body of a wrong length is answered BAD_REQUEST, whatever the kind. -/
theorem exec_unfit {s : State} {p : PortId} {i : SlotIx} {r : Request} {rest : List SlotIx} (hd : s.heads p i r rest)
    {c : Instr} (hc : r.kind.command p = some c)
    (h : r.body.length < r.kind.bodyLengths.1 ∨ r.kind.bodyLengths.2 < r.body.length) :
    exec c s = .next (s.answered p i r rest .badRequest 0 []) := by
  have served {k : ReqKind} (hk : r.kind = k) {f : State → PortId → List Byte → State × Answer}
      (hf : f s p r.body = (s, badRequest)) :
      Host.Outcome.next (s.serve p k f) = (.next (s.answered p i r rest .badRequest 0 []) : Host.Outcome State Fault Refusal) :=
    congrArg Host.Outcome.next (State.serve_same hd hk f hf)
  have line {k : ReqKind} (hk : r.kind = k) :
      Host.Outcome.next (s.dispatchLine p k) = (.next (s.answered p i r rest .badRequest 0 []) : Host.Outcome State Fault Refusal) :=
    congrArg Host.Outcome.next (State.dispatchLine_unsuited hd hk (hk ▸ eq_none_of_unfit (fun _ => bodyLine_fits) h))
  have unfit {β : Type} {parse : List Byte → Option β} {n : Nat} (hn : r.kind.bodyLengths = (n, n))
      (len : ∀ x, parse r.body = some x → r.body.length = n) : parse r.body = none :=
    eq_none_of_unfit (fun x hx => by rw [ReqKind.fits, hn, len x hx]; exact ⟨Nat.le_refl _, Nat.le_refl _⟩) h
  cases hk : r.kind <;> rw [hk] at hc <;> cases hc
  case describe | getNotices =>
    exact served hk (by rw [lookup, unfit (by rw [hk]; rfl) fun _ => bodyNone_length])
  case clearNotices => exact served hk (by rw [serveClearNotices, unfit (by rw [hk]; rfl) fun _ => bodyNoticeSet_length])
  case setNoticeMask => exact served hk (by rw [serveSetNoticeMask, unfit (by rw [hk]; rfl) fun _ => bodyNoticeSet_length])
  case getChanges => exact served hk (by rw [serveGetChanges, unfit (by rw [hk]; rfl) fun _ => bodyNone_length])
  case restart =>
    exact congrArg Host.Outcome.next
      (State.dispatchRestart_unsuited hd hk (unfit (by rw [hk]; rfl) fun _ => bodyRestart_length) _ _)
  case quiet => exact served hk (by rw [serveQuiet, unfit (by rw [hk]; rfl) fun _ => bodyNone_length])
  case wake =>
    exact congrArg Host.Outcome.next (State.dispatchWake_unsuited hd hk (unfit (by rw [hk]; rfl) fun _ => bodyNone_length))
  case seed => exact served hk (by rw [serveSeed, unfit (by rw [hk]; rfl) fun _ => bodySeed_length])
  case seedEnd => exact served hk (by rw [serveSeedEnd, unfit (by rw [hk]; rfl) fun _ => bodyNone_length])
  case findId => exact served hk (by rw [lookup, unfit (by rw [hk]; rfl) fun _ => bodyFindId_length])
  case findAddr => exact served hk (by rw [lookup, unfit (by rw [hk]; rfl) fun _ => bodyFindAddr_length])
  case list => exact served hk (by rw [lookup, unfit (by rw [hk]; rfl) fun _ => bodyList_length])
  case readEntry => exact served hk (by rw [lookup, unfit (by rw [hk]; rfl) fun _ => bodyByte_length])
  case setLabel => exact served hk (by rw [serveSetLabel, unfit (by rw [hk]; rfl) fun _ => bodySetLabel_length])
  case setStride => exact served hk (by rw [serveSetStride, unfit (by rw [hk]; rfl) fun _ => bodySetStride_length])
  case claim | unclaim => exact served hk (by rw [serveClaim, unfit (by rw [hk]; rfl) fun _ => bodyByte_length])
  case watch | unwatch => exact served hk (by rw [serveWatch, unfit (by rw [hk]; rfl) fun _ => bodyByte_length])
  case setSegment => exact served hk (by rw [serveSetSegment, unfit (by rw [hk]; rfl) fun _ => bodySetSegment_length])
  case getSegment => exact served hk (by rw [serveGetSegment, unfit (by rw [hk]; rfl) fun _ => bodySegment_length])
  case nodeRead | nodeWrite | broadcast | discover | move | retire => exact line hk

/-- Settles O24. -/
theorem unsuitedBodyIsBadRequest : Obligations.UnsuitedBodyIsBadRequest := by
  intro s p i r rest hd bad
  have line {k : ReqKind} (hk : r.kind = k) (hb : bodyLine k r.body = none) :
      Host.Outcome.next (s.dispatchLine p k) = (.next (s.answered p i r rest .badRequest 0 []) : Host.Outcome State Fault Refusal) :=
    congrArg Host.Outcome.next (State.dispatchLine_unsuited hd hk hb)
  refine ⟨fun c hc h => exec_unfit hd hc h, fun hk other => ?_, fun b x item len hk hb h => line hk ?_,
    fun b more hk hb h => line hk ?_, fun b hk hb h => line hk ?_, fun b t x hk hb h => line hk ?_,
    fun b f x hk hb h => line hk ?_⟩
  · have none : bodyRestart r.body = none := by
      unfold bodyRestart
      split
      · rename_i b hb
        obtain ⟨h1, h2⟩ := other b hb
        rw [if_neg h1, if_neg h2]
      · rfl
    exact ⟨congrArg Host.Outcome.next (State.dispatchRestart_unsuited hd hk none _ _),
      congrArg Host.Outcome.next (State.dispatchRestart_unsuited hd hk none _ _)⟩
  · rw [hb, bodyLine, if_neg]
    rw [one_le_toNat]
    rintro ⟨h0, h1⟩
    rcases h with h | h
    · exact h0 h
    · omega
  · rw [hb]
    cases more with
    | nil => rfl
    | cons item data => simp [bodyLine, segOf_none b h]
  · rw [hb, bodyLine, segOf_none b h]; rfl
  · rw [hb, bodyLine, isAddress_false h]; rfl
  · rw [hb, bodyLine, flagOf_none f h]; rfl

/-! ### The checks of a request that names an entry -/

/-- A line request whose body suits its kind and whose checks fail is answered with its failure. -/
theorem State.dispatchLine_refused {s : State} {p : PortId} {i : SlotIx} {r : Request} {rest : List SlotIx} {k : ReqKind}
    (hd : s.heads p i r rest) (hk : r.kind = k) {q : LineReq} (hb : bodyLine k r.body = some q) {a : Answer}
    (hc : s.checkLine p q = .error a) : s.dispatchLine p k = s.answered p i r rest a.status a.generation a.body := by
  rw [State.dispatchLine, State.dispatch_of_heads hd hk, hk, hb]
  dsimp only
  rw [hc]
  exact State.finish_head s a hd.2.1 hd.2.2.1 hd.2.2.2.1

theorem bodyLine_nodeRead {b x item len : Byte} (h1 : 1 ≤ len.toNat) (h2 : len.toNat ≤ 32) :
    bodyLine .nodeRead [b, x, item, len] = some (.nodeRead b x item len) := if_pos ⟨h1, h2⟩

theorem bodyLine_nodeWrite {b x item : Byte} {data : List Byte} (h1 : 1 ≤ data.length) (h2 : data.length ≤ 32) :
    bodyLine .nodeWrite (b :: x :: item :: data) = some (.nodeWrite b x item data) := if_pos ((dataOk_iff data).2 ⟨h1, h2⟩)

theorem bodyLine_broadcast {g : Seg} {item : Byte} {data : List Byte} (h1 : 1 ≤ data.length) (h2 : data.length ≤ 32) :
    bodyLine .broadcast (byte g.val :: item :: data) = some (.broadcast g item data) := by
  simp [bodyLine, (dataOk_iff data).2 ⟨h1, h2⟩]

theorem bodyLine_discover (g : Seg) : bodyLine .discover [byte g.val] = some (.discover g) := by simp [bodyLine]

theorem bodyLine_move {b t x : Byte} (h1 : 1 ≤ t.toNat) (h2 : t.toNat ≤ 200) :
    bodyLine .move [b, t, x] = some (.move b t x) := if_pos ((isAddress_iff t).2 ⟨h1, h2⟩)

theorem bodyLine_retire {b f x : Byte} (h : f.toNat ≤ 1) : bodyLine .retire [b, f, x] = some (.retire b (f == 1) x) := by
  rw [bodyLine, flagOf_some h]; rfl

theorem State.checkLine_nodeRead_error {s : State} {p : PortId} {b x item len : Byte} {a : Answer}
    (h : s.commonUnclaimed p b x = .error a) : s.checkLine p (.nodeRead b x item len) = .error a := by
  rw [State.checkLine, h]; rfl

theorem State.checkLine_nodeWrite_error {s : State} {p : PortId} {b x item : Byte} {d : List Byte} {a : Answer}
    (h : s.commonAll p b x = .error a) : s.checkLine p (.nodeWrite b x item d) = .error a := by
  rw [State.checkLine, h]; rfl

theorem State.checkLine_move_error {s : State} {p : PortId} {b t x : Byte} {a : Answer}
    (h : s.commonAll p b x = .error a) : s.checkLine p (.move b t x) = .error a := by
  rw [State.checkLine, h]; rfl

theorem State.checkLine_retire_error {s : State} {p : PortId} {b x : Byte} {f : Bool} {a : Answer}
    (h : s.commonAll p b x = .error a) : s.checkLine p (.retire b f x) = .error a := by
  rw [State.checkLine, h]; rfl

theorem bodySetLabel_some {b x opt l1 l0 : Byte} (h : opt.toNat ≤ 1) :
    bodySetLabel [b, x, opt, l1, l0] =
      some { handle := b, expected := x, label := if opt = 1 then none else some (l1 ++ l0) } := by
  simp only [bodySetLabel, flagOf_some h, decide_eq_true_eq]
  rfl

theorem bodySetStride_some {b x n : Byte} (h1 : 1 ≤ n.toNat) (h2 : n.toNat ≤ 15) :
    bodySetStride [b, x, n] = some { handle := b, expected := x, stride := n.toNat } := if_pos ⟨h1, h2⟩

/-- Settles O25. -/
theorem firstFailedCheckAnswers : Obligations.FirstFailedCheckAnswers := by
  intro s p i r rest b x st gen bd hd
  refine ⟨fun fails => ?_, fun fails item len hk hb h1 h2 => ?_⟩
  · have all := State.commonAll_error fails
    refine ⟨fun opt l1 l0 hk hb ho => ?_, fun n hk hb h1 h2 => ?_, fun item data hk hb h1 h2 => ?_, fun t hk hb h1 h2 => ?_,
      fun f hk hb hf => ?_⟩
    · refine congrArg Host.Outcome.next (State.serve_same hd hk serveSetLabel (ans := ⟨st, gen, bd⟩) ?_)
      simp only [serveSetLabel, hb, bodySetLabel_some ho, all]
    · refine congrArg Host.Outcome.next (State.serve_same hd hk serveSetStride (ans := ⟨st, gen, bd⟩) ?_)
      simp only [serveSetStride, hb, bodySetStride_some h1 h2, all]
    · exact congrArg Host.Outcome.next (State.dispatchLine_refused hd hk (by rw [hb]; exact bodyLine_nodeWrite h1 h2)
        (State.checkLine_nodeWrite_error all))
    · exact congrArg Host.Outcome.next (State.dispatchLine_refused hd hk (by rw [hb]; exact bodyLine_move h1 h2)
        (State.checkLine_move_error all))
    · exact congrArg Host.Outcome.next (State.dispatchLine_refused hd hk (by rw [hb]; exact bodyLine_retire hf)
        (State.checkLine_retire_error all))
  · exact congrArg Host.Outcome.next (State.dispatchLine_refused hd hk (by rw [hb]; exact bodyLine_nodeRead h1 h2)
      (State.checkLine_nodeRead_error (State.commonUnclaimed_error fails)))

/-! ### The later checks of a line request -/

/-- The later checks of a line request in the words of R36: state answer, segment condition, then the target of a MOVE. -/
theorem State.lineFailure_none_eq (s : State) (h : Handle) (f : EntryState → Option Status) :
    s.lineFailure h f none = ((f (s.entry h).state).or (s.segmentCondition (s.entry h).segment)).or none := by
  unfold State.lineFailure State.segmentCondition
  dsimp only
  cases f (s.entry h).state with
  | some c => rfl
  | none =>
    dsimp only
    split
    · rfl
    · split <;> rfl

theorem State.inPool_false_iff {s : State} {g : Seg} (fit : (s.segSetup g).fitted = true) (t : Byte) :
    s.inPool g t = false ↔ t.toNat < (s.segSetup g).poolLow.toNat ∨ (s.segSetup g).poolHigh.toNat < t.toNat := by
  simp [State.inPool, fit]
  omega

theorem State.lineFailure_some_eq (s : State) (h : Handle) (f : EntryState → Option Status) (t : Byte) :
    s.lineFailure h f (some t) =
      ((f (s.entry h).state).or (s.segmentCondition (s.entry h).segment)).or (s.moveTarget (s.entry h).segment t) := by
  unfold State.lineFailure State.segmentCondition
  dsimp only
  cases f (s.entry h).state with
  | some c => rfl
  | none =>
    dsimp only
    split
    · rfl
    · rename_i off
      have fit : (s.segSetup (s.entry h).segment).fitted = true := by
        simpa using (not_or.1 off).1
      split
      · rfl
      · unfold State.moveTarget
        simp only [State.inPool_false_iff fit]
        rfl

theorem State.laterChecks_error {s : State} {h : Handle} {st cond own : Option Status} {c : Status}
    (hc : (st.or cond).or own = some c) : s.laterChecks h st cond own = .error (s.refuse h c) := by
  unfold State.laterChecks
  rw [hc]

theorem State.laterChecks_pass {s : State} {h : Handle} {st cond own : Option Status} (hc : (st.or cond).or own = none) :
    s.laterChecks h st cond own = .ok () := by
  unfold State.laterChecks
  rw [hc]

/-- What a line request for entry `h` that passes its common checks comes to: its later failure, or its segment. -/
def State.lineVerdict (s : State) (h : Handle) (c : Option Status) : Except Answer Seg :=
  match c with
  | some c => .error (s.refuse h c)
  | none => .ok (s.entry h).segment

theorem State.laterChecks_bind (s : State) (h : Handle) (st cond own : Option Status) :
    (do s.laterChecks h st cond own; return (s.entry h).segment : Except Answer Seg) =
      s.lineVerdict h ((st.or cond).or own) := by
  cases hc : (st.or cond).or own with
  | none => rw [State.laterChecks_pass hc]; rfl
  | some c => rw [State.laterChecks_error hc]; rfl

section
variable {s : State} {p : PortId} {h : Handle} {x : Byte}

theorem State.checkLine_nodeRead_eq (item len : Byte) (ok : s.firstFailure p (byte h.val) false (some x) = none) :
    s.checkLine p (.nodeRead (byte h.val) x item len) = s.lineVerdict h (s.lineFailure h transferState none) := by
  rw [State.checkLine, State.commonUnclaimed_ok ok, State.lineFailure_none_eq]
  exact State.laterChecks_bind ..

theorem State.checkLine_nodeWrite_eq (item : Byte) (d : List Byte) (ok : s.firstFailure p (byte h.val) true (some x) = none) :
    s.checkLine p (.nodeWrite (byte h.val) x item d) = s.lineVerdict h (s.lineFailure h transferState none) := by
  rw [State.checkLine, State.commonAll_ok ok, State.lineFailure_none_eq]
  exact State.laterChecks_bind ..

theorem State.checkLine_move_eq (t : Byte) (ok : s.firstFailure p (byte h.val) true (some x) = none) :
    s.checkLine p (.move (byte h.val) t x) = s.lineVerdict h (s.lineFailure h moveState (some t)) := by
  rw [State.checkLine, State.commonAll_ok ok, State.lineFailure_some_eq]
  exact State.laterChecks_bind ..

theorem State.checkLine_retire_eq (f : Bool) (ok : s.firstFailure p (byte h.val) true (some x) = none) :
    s.checkLine p (.retire (byte h.val) f x) = s.lineVerdict h (s.lineFailure h retireState none) := by
  rw [State.checkLine, State.commonAll_ok ok, State.lineFailure_none_eq]
  exact State.laterChecks_bind ..

end

/-- Settles O42: the later checks give `lineFailure`, the checks without an entry are taken in their order. -/
theorem lineRequestRefusalAnswersFirstFailure : Obligations.LineRequestRefusalAnswersFirstFailure := by
  intro s p i r rest hd
  have line {k : ReqKind} (hk : r.kind = k) {q : LineReq} (hb : bodyLine k r.body = some q) {a : Answer}
      (hc : s.checkLine p q = .error a) : Host.Outcome.next (s.dispatchLine p k) =
        (.next (s.answered p i r rest a.status a.generation a.body) : Host.Outcome State Fault Refusal) :=
    congrArg Host.Outcome.next (State.dispatchLine_refused hd hk hb hc)
  refine ⟨fun h x c => ⟨fun item len hk hb h1 h2 ok fails => ?_, fun ok => ⟨fun item data hk hb h1 h2 fails => ?_,
    fun t hk hb h1 h2 fails => ?_, fun f hk hb hf fails => ?_⟩⟩, fun g item data hk hb h1 h2 => ⟨fun no => ?_, fun c yes fails => ?_⟩,
    fun g hk hb => ⟨fun no => ?_, fun yes seeding => ?_, fun c yes seeding fails => ?_⟩⟩
  · exact line hk (by rw [hb]; exact bodyLine_nodeRead h1 h2) (by rw [State.checkLine_nodeRead_eq _ _ ok, fails]; rfl)
  · exact line hk (by rw [hb]; exact bodyLine_nodeWrite h1 h2) (by rw [State.checkLine_nodeWrite_eq _ _ ok, fails]; rfl)
  · exact line hk (by rw [hb]; exact bodyLine_move h1 h2) (by rw [State.checkLine_move_eq _ ok, fails]; rfl)
  · exact line hk (by rw [hb]; exact bodyLine_retire hf) (by rw [State.checkLine_retire_eq _ ok, fails]; rfl)
  · exact line hk (a := Answer.bare .notPermitted 0) (by rw [hb]; exact bodyLine_broadcast h1 h2)
      (by simp [State.checkLine, no])
  · exact line hk (a := Answer.bare c 0) (by rw [hb]; exact bodyLine_broadcast h1 h2) (by simp [State.checkLine, yes, fails])
  · exact line hk (a := ⟨.notPermitted, 0, discoverNothing .none⟩) (by rw [hb]; exact bodyLine_discover g)
      (by simp [State.checkLine, no])
  · exact line hk (a := ⟨.wrongState, 0, discoverNothing .none⟩) (by rw [hb]; exact bodyLine_discover g)
      (by simp [State.checkLine, yes, seeding])
  · exact line hk (a := ⟨c, 0, discoverNothing .none⟩) (by rw [hb]; exact bodyLine_discover g)
      (by simp [State.checkLine, yes, seeding, fails])

end Sys2Proof.Machine
end

section
/-! PROOFS. SET_LABEL and SET_STRIDE (R38, R41), the notice requests (R183 to R187), SEED and SEED_END (R200 to R202), and quiet
operation (R203 to R206). -/

namespace Sys2Proof.Machine

/-! ### SET_LABEL and SET_STRIDE -/

/-- A host change that differs in a generation-bearing field is answered over the moved entry. -/
theorem State.serve_moved {s : State} {p : PortId} {i : SlotIx} {r : Request} {rest : List SlotIx} {k : ReqKind}
    (hd : s.heads p i r rest) (hk : r.kind = k) {f : State → PortId → List Byte → State × Answer} {h : Handle} {e : Entry}
    (hf : f s p r.body = (s.change h e, (s.change h e).okFor h [])) (d : bearingDiffers (s.entry h) e = true)
    (wa : e.watchA = (s.entry h).watchA) (wb : e.watchB = (s.entry h).watchB) :
    s.serve p k f = (s.moved h e).answered p i r rest .ok (generationAfter (s.entry h).generation) [] := by
  rw [State.change_moved s h e d wa wb] at hf
  rw [State.serve_of_heads hd hk f hf (by simp [PortState.handed]) (by simp), State.okFor, State.moved_entry_same]

/-- A host change that differs in none writes the entry and keeps its generation. -/
theorem State.serve_rewritten {s : State} {p : PortId} {i : SlotIx} {r : Request} {rest : List SlotIx} {k : ReqKind}
    (hd : s.heads p i r rest) (hk : r.kind = k) {f : State → PortId → List Byte → State × Answer} {h : Handle} {e : Entry}
    (hf : f s p r.body = (s.change h e, (s.change h e).okFor h [])) (d : bearingDiffers (s.entry h) e = false)
    (hg : e.generation = (s.entry h).generation) :
    s.serve p k f = (s.setEntry h e).answered p i r rest .ok (s.entry h).generation [] := by
  rw [State.change_same s h e d hg] at hf
  rw [State.serve_of_heads hd hk f hf (by simp) (by simp), State.okFor, State.setEntry_entry_same, hg]

theorem bearingDiffers_label (e : Entry) (l : Option (BitVec 16)) :
    bearingDiffers e { e with label := l } = true ↔ l ≠ e.label := by
  simp only [bearingDiffers, bne_self_eq_false, Bool.false_or, Bool.or_false, bne_iff_ne]
  exact ne_comm

theorem bearingDiffers_stride (e : Entry) (st : Option Stride) :
    bearingDiffers e { e with stride := st } = true ↔ st.map Stride.value ≠ e.stride.map Stride.value := by
  simp only [bearingDiffers, bne_self_eq_false, Bool.false_or, bne_iff_ne]
  exact ne_comm

theorem serveSetLabel_passed {s : State} {p : PortId} {h : Handle} {x opt l1 l0 : Byte} (ho : opt.toNat ≤ 1)
    (ok : s.firstFailure p (byte h.val) true (some x) = none) :
    serveSetLabel s p [byte h.val, x, opt, l1, l0] =
      (s.change h { s.entry h with label := if opt = 1 then none else some (l1 ++ l0) },
        (s.change h { s.entry h with label := if opt = 1 then none else some (l1 ++ l0) }).okFor h []) := by
  simp only [serveSetLabel, bodySetLabel_some ho, State.commonAll_ok ok]

theorem strideOf_eq (n : Byte) : strideOf n.toNat = if n = 1 then none else some { value := n.toNat, counter := 0 } := by
  have one : n.toNat = 1 ↔ n = 1 := by rw [← BitVec.toNat_inj]; rfl
  simp only [strideOf, one]

theorem serveSetStride_passed {s : State} {p : PortId} {h : Handle} {x n : Byte} (h1 : 1 ≤ n.toNat) (h2 : n.toNat ≤ 15)
    (ok : s.firstFailure p (byte h.val) true (some x) = none) :
    serveSetStride s p [byte h.val, x, n] =
      (s.change h { s.entry h with stride := if n = 1 then none else some { value := n.toNat, counter := 0 } },
        (s.change h { s.entry h with stride := if n = 1 then none else some { value := n.toNat, counter := 0 } }).okFor
          h []) := by
  simp only [serveSetStride, bodySetStride_some h1 h2, State.commonAll_ok ok, strideOf_eq]

/-- Settles O26: the label or stride that differs is the one generation-bearing difference. -/
theorem labelAndStrideChangesMoveTheGeneration : Obligations.LabelAndStrideChangesMoveTheGeneration := by
  refine ⟨fun s p i r rest h x opt l1 l0 hd hk hb => ⟨fun bad => ?_, fun ho ok => ?_⟩,
    fun s p i r rest h x n hd hk hb => ⟨fun bad => ?_, fun h1 h2 ok => ?_⟩⟩
  · refine congrArg Host.Outcome.next (State.serve_same hd hk serveSetLabel (ans := badRequest) ?_)
    simp only [serveSetLabel, hb, bodySetLabel, flagOf_none opt bad]
  · have small : opt.toNat ≤ 1 := by rcases ho with rfl | rfl <;> decide
    intro e label
    have served := hb ▸ serveSetLabel_passed (l1 := l1) (l0 := l0) small ok
    have differs := bearingDiffers_label e label
    refine ⟨fun same => ?_, fun new => congrArg Host.Outcome.next (State.serve_moved hd hk served (differs.2 new) rfl rfl)⟩
    have kept := State.serve_rewritten hd hk served
      (Bool.eq_false_iff.2 fun d => (bearingDiffers_label e label).1 d same) rfl
    refine congrArg Host.Outcome.next (kept.trans ?_)
    rw [show ({ s.entry h with label := if opt = 1 then none else some (l1 ++ l0) } : Entry) = s.entry h from
      congrArg (fun l => { s.entry h with label := l }) same, State.setEntry_self]
  · refine congrArg Host.Outcome.next (State.serve_same hd hk serveSetStride (ans := badRequest) ?_)
    have unsuited : bodySetStride r.body = none := by
      rw [hb, bodySetStride, if_neg]
      rintro ⟨h1, h2⟩
      rcases bad with h | h
      · exact one_le_toNat.1 h1 h
      · omega
    simp only [serveSetStride, unsuited]
  · intro e stride
    have served := hb ▸ serveSetStride_passed h1 h2 ok
    have differs := bearingDiffers_stride e stride
    refine ⟨fun same => ?_, fun new => congrArg Host.Outcome.next (State.serve_moved hd hk served (differs.2 new) rfl rfl)⟩
    exact congrArg Host.Outcome.next (State.serve_rewritten hd hk served
      (Bool.eq_false_iff.2 fun d => differs.1 d same) rfl)

/-! ### GET_NOTICES and GET_CHANGES -/

theorem exec_getNotices (p : PortId) (s : State) :
    exec (.getNotices p) s = .next (s.serve p .getNotices (lookup bodyNone answerGetNotices)) := rfl

/-- A port's flags as the two bytes of a notice set. -/
theorem flagBytes_getLsbD_iff {m : BitVec 13} {f : Nat → Prop} (h : ∀ k, k < 13 → (m.getLsbD k = true ↔ f k)) (k : Nat) :
    (m.setWidth 16).getLsbD k = true ↔ k < 13 ∧ f k := by
  by_cases hk : k < 13
  · rw [BitVec.getLsbD_setWidth, decide_eq_true (by omega : k < 16), Bool.true_and, h k hk, and_iff_right hk]
  · simp [BitVec.getLsbD_of_ge m k (by omega), hk]

/-- The attention level as a byte. -/
theorem boolByte_iff {b : Bool} {P : Prop} (h : b = true ↔ P) : (boolByte b = 1 ∧ P) ∨ (boolByte b = 0 ∧ ¬ P) := by
  rw [← h]
  cases b
  · exact .inr ⟨rfl, by simp⟩
  · exact .inl ⟨rfl, rfl⟩

/-- The members of a change set, before the answer is cut at 16. -/
def NoticeUnit.members (u : NoticeUnit) : List Handle := allHandles.filter fun h => u.changed[h]

theorem NoticeUnit.lowestChanged_eq (u : NoticeUnit) : u.lowestChanged = u.members.take 16 := rfl

theorem NoticeUnit.mem_members (u : NoticeUnit) (h : Handle) : h ∈ u.members ↔ u.changed[h] = true := by
  simp [NoticeUnit.members, allHandles]

theorem NoticeUnit.members_pairwise (u : NoticeUnit) : u.members.Pairwise (· < ·) :=
  (List.pairwise_lt_finRange 128).sublist List.filter_sublist

theorem NoticeUnit.lowestChanged_whole {u : NoticeUnit} (short : u.lowestChanged.length < 16) :
    u.lowestChanged = u.members := by
  rw [NoticeUnit.lowestChanged_eq, List.length_take] at short
  rw [NoticeUnit.lowestChanged_eq, List.take_of_length_le (by omega)]

theorem serveGetChanges_empty (s : State) (p : PortId) :
    serveGetChanges s p [] =
      (s.updPort p fun x => { x with notices :=
          { x.notices with changed := ((s.port p).notices.removeChanged (s.port p).notices.lowestChanged).changed } },
       { status := .ok, generation := 0, body := (s.port p).notices.lowestChanged.flatMap s.handleTriple }) := rfl

/-- Settles O28: the flag set read bit by bit; the lowest 16 members in ascending order. -/
theorem getNoticesAndGetChangesReportTheUnit : Obligations.GetNoticesAndGetChangesReportTheUnit := by
  refine ⟨fun s p i r rest hd hk => ⟨fun hb => ?_, fun hb => ?_⟩, fun s p i r rest hd hk => ⟨fun hb => ?_, fun hb => ?_⟩⟩
  · rw [exec_getNotices, State.serve_lookup_unsuited hd hk answerGetNotices (bodyNone_of_ne hb)]
  · refine ⟨(s.port p).flags.setWidth 16, boolByte (s.attention p),
      flagBytes_getLsbD_iff fun k hk => (s.port p).flags_getLsbD_iff hk, boolByte_iff ?_, ?_⟩
    · rw [State.attention_iff, and_iff_right hd.1]
    · rw [exec_getNotices, State.serve_lookup_suited hd hk answerGetNotices (by rw [hb]; rfl)]
      rfl
  · refine congrArg Host.Outcome.next (State.serve_same hd hk serveGetChanges (ans := badRequest) ?_)
    simp only [serveGetChanges, bodyNone_of_ne hb]
  · intro member
    refine ⟨(s.port p).notices.lowestChanged,
      ((s.port p).notices.removeChanged (s.port p).notices.lowestChanged).changed,
      fun h hm => (NoticeUnit.mem_members _ h).1 (List.mem_of_mem_take hm),
      ((s.port p).notices.members_pairwise).sublist (List.take_sublist _ _), List.length_take_le _ _,
      fun short h hm => ?_, fun h k hk hm lt => ?_, fun h => NoticeUnit.removeChanged_getElem _ _ h, ?_⟩
    · rw [NoticeUnit.lowestChanged_whole short]
      exact (NoticeUnit.mem_members _ h).2 hm
    · exact mem_take_of_lt_of_pairwise ((s.port p).notices.members_pairwise) hk ((NoticeUnit.mem_members _ h).2 hm) lt
    · exact congrArg Host.Outcome.next
        (State.serve_of_heads hd hk serveGetChanges (hb ▸ serveGetChanges_empty s p) (by simp) (by simp [State.slot]))

/-! ### CLEAR_NOTICES and SET_NOTICE_MASK -/

theorem word16_toNat (hi lo : Byte) : (word16 hi lo).toNat = 256 * hi.toNat + lo.toNat := by
  rw [word16, BitVec.toNat_append, ← Nat.shiftLeft_add_eq_or_of_lt lo.isLt, Nat.shiftLeft_eq, Nat.mul_comm]

theorem noticeSetOf_some {hi : Byte} (h : hi.toNat ≤ 31) (lo : Byte) :
    noticeSetOf hi lo = some ((hi ++ lo : BitVec 16).setWidth 13) := by
  have small : (word16 hi lo).toNat < 8192 := by
    have := lo.isLt
    rw [word16_toNat]
    omega
  rw [noticeSetOf, if_pos small, ← BitVec.setWidth_eq_extractLsb' (by decide)]
  rfl

theorem noticeSetOf_none {hi : Byte} (h : 31 < hi.toNat) (lo : Byte) : noticeSetOf hi lo = none := by
  refine if_neg fun small => ?_
  rw [word16_toNat] at small
  omega

/-- The flags of a port with a COMPLETED slot more. -/
theorem PortState.answered_flags (x : PortState) (i : SlotIx) (r : Request) (rest : List SlotIx) (st : Status) (gen : Byte)
    (body : List Byte) : (x.answered i r rest st gen body).flags = x.flagsAfter := by
  have ready : (x.answered i r rest st gen body).responseReady = true :=
    (PortState.responseReady_iff _).2 ⟨i, r, r.reply st gen body, by simp [PortState.answered]⟩
  have levels : ∀ (y : BitVec 13) (a c : Bool), y ||| levelFlags true c = y ||| levelFlags a c ||| levelFlags true false := by
    intro y a c
    have : ∀ a c : Bool, levelFlags true c = levelFlags a c ||| levelFlags true false := by decide
    rw [this a c, BitVec.or_assoc]
  rw [PortState.flags, ready, PortState.flagsAfter, PortState.flags]
  exact levels ..

/-- The answer of a notice set: flags and attention as they stand once it is COMPLETED (log 15). -/
theorem State.attentionAfter_iff {s : State} (live : s.runState.isStarting = false) (p : PortId) (i : SlotIx) (r : Request)
    (rest : List SlotIx) (st : Status) (gen : Byte) (body : List Byte) :
    s.attentionAfter p = true ↔ ((s.answered p i r rest st gen body).port p).attends := by
  rw [State.answered, State.setPort_port_same, ← PortState.masked_ne_zero_iff, PortState.answered_flags, State.attentionAfter,
    live]
  simp [PortState.answered]

/-- Settles O29. -/
theorem noticeSetsClearFlagsAndWriteMask : Obligations.NoticeSetsClearFlagsAndWriteMask := by
  intro s p i r rest hi lo hd hb
  refine ⟨fun big => ⟨fun hk => ?_, fun hk => ?_⟩, fun small => ?_⟩
  · refine congrArg Host.Outcome.next (State.serve_same hd hk serveClearNotices (ans := badRequest) ?_)
    simp only [serveClearNotices, hb, bodyNoticeSet, noticeSetOf_none big]
  · refine congrArg Host.Outcome.next (State.serve_same hd hk serveSetNoticeMask (ans := badRequest) ?_)
    simp only [serveSetNoticeMask, hb, bodyNoticeSet, noticeSetOf_none big]
  · have suited : bodyNoticeSet r.body = some ((hi ++ lo : BitVec 16).setWidth 13) := by
      rw [hb, bodyNoticeSet, noticeSetOf_some small]
    intro m
    refine ⟨fun hk => ?_, fun hk => ?_⟩
    · let u := s.updPort p fun x => { x with notices := { x.notices with sticky := x.notices.sticky &&& ~~~m } }
      have live : u.runState.isStarting = false := by simp [u, hd.1]
      have served : serveClearNotices s p r.body =
          (u, ⟨.ok, 0, noticeBytes (u.port p).flagsAfter ++ [boolByte (u.attentionAfter p)]⟩) := by
        simp only [serveClearNotices, suited]; rfl
      refine ⟨_, (u.port p).flagsAfter.setWidth 16, boolByte (u.attentionAfter p),
        congrArg Host.Outcome.next (State.serve_of_heads hd hk serveClearNotices served (by simp [u]) (by simp [u, State.slot])),
        rfl, ?_, boolByte_iff (State.attentionAfter_iff live ..)⟩
      refine flagBytes_getLsbD_iff fun k hk => ?_
      rw [State.answered, State.setPort_port_same, ← PortState.flags_getLsbD_iff _ hk, PortState.answered_flags]
    · let u := s.updPort p fun x => { x with notices := { x.notices with mask := m } }
      have live : u.runState.isStarting = false := by simp [u, hd.1]
      have served : serveSetNoticeMask s p r.body = (u, ⟨.ok, 0, noticeBytes m ++ [boolByte (u.attentionAfter p)]⟩) := by
        simp only [serveSetNoticeMask, suited]; rfl
      exact ⟨_, boolByte (u.attentionAfter p),
        congrArg Host.Outcome.next (State.serve_of_heads hd hk serveSetNoticeMask served (by simp [u]) (by simp [u, State.slot])),
        rfl, boolByte_iff (State.attentionAfter_iff live ..)⟩

/-! ### SEED and SEED_END -/

theorem State.lowestFree_eq_some {s : State} {h : Handle} (free : (s.entry h).state = .free)
    (lowest : ∀ k : Handle, k < h → (s.entry k).state ≠ .free) : s.lowestFree = some h := by
  have found : Fin.find? (fun h => (s.entry h).isFree) = some h :=
    Fin.find?_eq_some_iff.2 ⟨(Entry.isFree_iff _).2 free, fun k hk => (Entry.isFree_false_iff _).2 (lowest k hk)⟩
  rw [← found, Fin.find?_eq_find?_finRange]
  rfl

theorem State.lowestFree_eq_none {s : State} (full : ∀ h : Handle, (s.entry h).state ≠ .free) : s.lowestFree = none := by
  refine List.find?_eq_none.2 fun h _ => ?_
  simpa using (Entry.isFree_false_iff _).2 (full h)

/-- The body of a SEED with its bytes in range. -/
theorem bodySeed_some {x : Ident} (h0 : x ≠ 0) (h1 : x ≠ BitVec.allOnes 48) (g : Seg) {a : Byte} (ha : a ≠ 0)
    (ha' : a.toNat ≤ 200) (c : Byte) {ind : Byte} (hind : ind = 0 ∨ ind = 1) (l1 l0 : Byte) :
    bodySeed (identBytes x ++ [byte g.val, a, c, ind, l1, l0]) =
      some { identity := x, segment := g, address := a, cls := c, label := if ind = 1 then some (l1 ++ l0) else none } := by
  have small : ind.toNat ≤ 1 := by rcases hind with rfl | rfl <;> decide
  simp only [identBytes, List.cons_append, List.nil_append, bodySeed, segOf_byte, flagOf_some small, identOf_identBytes,
    (isIdentity_iff x).2 ⟨h0, h1⟩, isAddress_true ha ha', Bool.and_self, if_true, decide_eq_true_eq]
  rfl

theorem bodySeed_none {x : Ident} {b a c ind : Byte} (l1 l0 : Byte)
    (bad : x = 0 ∨ x = BitVec.allOnes 48 ∨ 3 < b.toNat ∨ a = 0 ∨ 200 < a.toNat ∨ 1 < ind.toNat) :
    bodySeed (identBytes x ++ [b, a, c, ind, l1, l0]) = none := by
  simp only [identBytes, List.cons_append, List.nil_append, bodySeed, identOf_identBytes]
  split
  · rename_i hg hind
    refine if_neg fun ok => ?_
    rw [Bool.and_eq_true, isIdentity_iff] at ok
    obtain ⟨⟨h0, h1⟩, ha⟩ := ok
    rcases bad with h | h | h | h | h | h
    · exact h0 h
    · exact h1 h
    · rw [segOf_none b h] at hg; cases hg
    · rw [isAddress_false (.inl h)] at ha; cases ha
    · rw [isAddress_false (.inr h)] at ha; cases ha
    · rw [flagOf_none ind h] at hind; cases hind
  · rfl

theorem State.inPool_false_iff' (s : State) (g : Seg) (a : Byte) :
    s.inPool g a = false ↔ (s.segSetup g).fitted = false ∨ a.toNat < (s.segSetup g).poolLow.toNat ∨
      (s.segSetup g).poolHigh.toNat < a.toNat := by
  cases fit : (s.segSetup g).fitted with
  | false => simp [State.inPool, fit]
  | true => simpa using State.inPool_false_iff fit a

/-- The checks of a SEED up to the map slot. -/
theorem State.checkSeed_error {s : State} {p : PortId} {q : SeedBody} {st : Status} {gen : Byte} {bd : List Byte}
    (h : s.seedFailure p q.segment q.address = some (st, gen, bd)) : s.checkSeed p q = .error ⟨st, gen, bd⟩ := by
  unfold State.seedFailure at h
  unfold State.checkSeed
  simp only [← State.inPool_false_iff'] at h
  split at h
  · rename_i closed; cases h; exact if_pos closed
  · rename_i opened
    rw [if_neg opened]
    split at h
    · rename_i no; cases h; exact if_pos no
    · rename_i yes
      rw [if_neg yes]
      split at h
      · rename_i out; cases h; exact if_pos out
      · rename_i inside
        rw [if_neg inside]
        cases hm : s.mapSlot q.segment q.address <;> rw [hm] at h <;> cases h <;> rfl

/-- With the map slot free, the holder of the identity and the lowest FREE entry decide. -/
theorem State.checkSeed_eq {s : State} {p : PortId} {q : SeedBody} (h : s.seedFailure p q.segment q.address = none) :
    s.checkSeed p q =
      match s.holder q.identity with
      | some h => .error { status := .identityClash, generation := (s.entry h).generation, body := [handleByte h] }
      | none =>
        match s.lowestFree with
        | some h => .ok h
        | none => .error (Answer.bare .directoryFull 0) := by
  unfold State.seedFailure at h
  unfold State.checkSeed
  simp only [← State.inPool_false_iff'] at h
  split at h
  · cases h
  · rename_i opened
    split at h
    · cases h
    · rename_i yes
      split at h
      · cases h
      · rename_i inside
        rw [if_neg opened, if_neg yes, if_neg inside]
        cases hm : s.mapSlot q.segment q.address <;> rw [hm] at h <;> cases h <;> rfl

theorem serveSeed_error {s : State} {p : PortId} {body : List Byte} {q : SeedBody} (hb : bodySeed body = some q) {a : Answer}
    (hc : s.checkSeed p q = .error a) : serveSeed s p body = (s, a) := by
  simp only [serveSeed, hb, hc]

/-- The entry that a SEED fills, once its map slot is HELD. -/
theorem State.seeded_eq {s : State} {h : Handle} (free : (s.entry h).state = .free) (x : Ident) (c : Byte) (g : Seg) (a : Byte)
    (l : Option (BitVec 16)) :
    (s.setMap g a (.held h)).change h ((s.entry h).filled .seeded x c g a l) =
      (s.setMap g a (.held h)).moved h
        { state := .seeded, generation := 0, identity := x, cls := c, segment := g, address := a, label := l, stride := none,
          silence := 0, age := 0, claim := none, watchA := (s.entry h).watchA, watchB := (s.entry h).watchB } := by
  rw [State.change_of_state _ h _ (by simp [free, Entry.filled, stateCode]) (by simp [Entry.filled, freeEntry])
    (by simp [Entry.filled, freeEntry])]
  rfl

/-- Settles O30. -/
theorem seedFillsAndSeedEndCloses : Obligations.SeedFillsAndSeedEndCloses := by
  refine ⟨fun s p i r rest x b a c ind l1 l0 hd hk hb => ⟨fun bad => ?_, ?_⟩,
    fun s p i r rest hd hk => ⟨fun hb => ?_, fun hb => ⟨fun opened => ?_, fun closed => ?_⟩⟩⟩
  · refine congrArg Host.Outcome.next (State.serve_same hd hk serveSeed (ans := badRequest) ?_)
    simp only [serveSeed, hb, bodySeed_none l1 l0 bad]
  · rintro h0 h1 ha ha' hind g rfl
    have suited := hb ▸ bodySeed_some h0 h1 g ha ha' c hind l1 l0
    have refused {ans : Answer} (hc : s.checkSeed p
        ⟨x, g, a, c, if ind = 1 then some (l1 ++ l0) else none⟩ = .error ans) :
        exec (.seed p) s = .next (s.answered p i r rest ans.status ans.generation ans.body) :=
      congrArg Host.Outcome.next (State.serve_same hd hk serveSeed (serveSeed_error suited hc))
    refine ⟨fun st gen bd fails => refused (State.checkSeed_error fails), fun passes => ⟨fun h held id only => ?_,
      fun full => ?_, fun unheld h free lowest => ?_⟩⟩
    · exact refused (by rw [State.checkSeed_eq passes, State.holder_of_unique held id only])
    · have unheld := State.holder_of_unheld (w := x) fun k => .inr (full k).2
      have none := State.lowestFree_eq_none fun k => (full k).1
      exact refused (ans := Answer.bare .directoryFull 0) (by rw [State.checkSeed_eq passes, unheld, none])
    · have checked : s.checkSeed p ⟨x, g, a, c, if ind = 1 then some (l1 ++ l0) else none⟩ = .ok h := by
        rw [State.checkSeed_eq passes, State.holder_of_unheld unheld, State.lowestFree_eq_some free lowest]
      have filled := State.seeded_eq free x c g a (if ind = 1 then some (l1 ++ l0) else none)
      have served : serveSeed s p r.body =
          ((s.setMap g a (.held h)).moved h
            { state := .seeded, generation := 0, identity := x, cls := c, segment := g, address := a,
              label := if ind = 1 then some (l1 ++ l0) else none, stride := none, silence := 0, age := 0, claim := none,
              watchA := (s.entry h).watchA, watchB := (s.entry h).watchB },
            ⟨.ok, generationAfter (s.entry h).generation, [byte h.val]⟩) := by
        simp only [serveSeed, suited, checked, filled, State.okFor, State.moved_entry_same, State.setMap_entry]
        rfl
      exact congrArg Host.Outcome.next
        (State.serve_of_heads hd hk serveSeed served (by simp [PortState.handed]) (by simp))
  · refine congrArg Host.Outcome.next (State.serve_same hd hk serveSeedEnd (ans := badRequest) ?_)
    simp only [serveSeedEnd, bodyNone_of_ne hb]
  · refine congrArg Host.Outcome.next (State.serve_of_heads hd hk serveSeedEnd (t := { s with seeding := false })
      (ans := Answer.bare .ok 0) (by rw [hb]; exact if_pos opened) ?_ ?_) <;> cases p <;> rfl
  · refine congrArg Host.Outcome.next (State.serve_same hd hk serveSeedEnd (ans := Answer.bare .wrongState 0) ?_)
    rw [hb]
    exact if_neg (by simp [closed])

/-! ### QUIET, DRAIN_COMPLETE and WAKE -/

theorem Slot.isBusy_iff (c : Slot) : c.isBusy = true ↔ ∃ r, c = .waiting r ∨ c = .dispatched r ∨ c = .onLine r := by
  cases c <;> simp [Slot.isBusy]

theorem Engine.orphaned_iff (e : Engine) : e.orphaned = true ↔ ∃ a ∈ e.activity, ∃ o ∈ a.owner, o.slot = none := by
  unfold Engine.orphaned
  split
  · rename_i ha; simp [ha, Option.isNone_iff_eq_none]
  · rename_i ha; simp [ha]
  · rename_i ha; simp [ha]

/-- The drain condition fails exactly when something is outstanding (R204). -/
theorem State.drained_false_iff (s : State) :
    s.drained = false ↔
      (∃ (p : PortId) (i : SlotIx) (r : Request),
        s.slot p i = .waiting r ∨ s.slot p i = .dispatched r ∨ s.slot p i = .onLine r) ∨
      ∃ g : Seg, (s.engine g).queue ≠ [] ∨ ∃ a ∈ (s.engine g).activity, ∃ o ∈ a.owner, o.slot = none := by
  have busy (p : PortId) : (s.port p).slots.any Slot.isBusy = true ↔
      ∃ (i : SlotIx) (r : Request), s.slot p i = .waiting r ∨ s.slot p i = .dispatched r ∨ s.slot p i = .onLine r := by
    simp only [vector_any_iff, Slot.isBusy_iff]
    rfl
  have ports : (∃ (p : PortId) (i : SlotIx) (r : Request),
        s.slot p i = .waiting r ∨ s.slot p i = .dispatched r ∨ s.slot p i = .onLine r) ↔
      s.portA.slots.any Slot.isBusy = true ∨ s.portB.slots.any Slot.isBusy = true := by
    rw [show s.portA = s.port .a from rfl, show s.portB = s.port .b from rfl, busy, busy]
    exact ⟨fun ⟨p, h⟩ => by cases p; exacts [.inl h, .inr h], fun h => h.elim (fun h => ⟨_, h⟩) fun h => ⟨_, h⟩⟩
  have engines : s.engines.all (fun e => e.queue.isEmpty && !e.orphaned) = false ↔
      ∃ g : Seg, (s.engine g).queue ≠ [] ∨ ∃ a ∈ (s.engine g).activity, ∃ o ∈ a.owner, o.slot = none := by
    simp only [← Engine.orphaned_iff]
    rw [Bool.eq_false_iff, ne_eq, Vector.all_eq_true]
    rw [Fin.exists_iff]
    simp only [not_forall, Bool.and_eq_true, List.isEmpty_iff, Bool.not_eq_true', not_and_or, Bool.not_eq_false]
    rfl
  rw [ports, ← engines, State.drained]
  cases s.portA.slots.any Slot.isBusy <;> cases s.portB.slots.any Slot.isBusy <;> simp

theorem State.answered_wake {s : State} {p : PortId} {i : SlotIx} {r : Request} {rest : List SlotIx} (hd : s.heads p i r rest)
    (a : Answer) : s.wake.finish p i a = s.wake.answered p i r rest a.status a.generation a.body :=
  State.finish_head _ a (by rw [State.wake_port]; exact hd.2.1) hd.2.2.1 (by rw [State.wake_slot]; exact hd.2.2.2.1)

theorem State.dispatchWake_suited {s : State} {p : PortId} {i : SlotIx} {r : Request} {rest : List SlotIx}
    (hd : s.heads p i r rest) (hk : r.kind = .wake) (hb : r.body = []) :
    s.dispatchWake p = s.wake.answered p i r rest .ok 0
      [wokeCode (match s.runState with | .quieting => .quieting | .quiet => .quiet | .run | .starting _ => r.woke)] := by
  rw [State.dispatchWake, State.dispatch_of_heads hd hk, hb]
  exact State.answered_wake hd _

/-- Settles O31. -/
theorem quietAndWakeMoveTheRunState : Obligations.QuietAndWakeMoveTheRunState := by
  refine ⟨fun s p i r rest hd hk => ⟨fun hb => ?_, fun hb busy => ?_, fun hb run closed => ?_⟩,
    fun s => ⟨fun quieting none => ?_, fun h => ?_⟩,
    fun s p i r rest hd hk => ⟨fun hb => ?_, fun hb => ⟨fun h => ?_, fun h => ?_, fun h => ?_⟩⟩⟩
  · refine congrArg Host.Outcome.next (State.serve_same hd hk serveQuiet (ans := badRequest) ?_)
    simp only [serveQuiet, bodyNone_of_ne hb]
  · refine congrArg Host.Outcome.next (State.serve_same hd hk serveQuiet (ans := Answer.bare .wrongState 0) ?_)
    rw [hb]
    exact if_neg fun ⟨run, closed⟩ => busy.elim (fun h => h run) fun h => by simp [closed] at h
  · refine congrArg Host.Outcome.next (State.serve_of_heads hd hk serveQuiet (t := { s with runState := .quieting })
      (ans := Answer.bare .ok 0) (by rw [hb]; exact if_pos ⟨run, closed⟩) ?_ ?_) <;> cases p <;> rfl
  · have drained : s.drained = true := by
      rw [← Bool.not_eq_false]
      exact fun h => none (s.drained_false_iff.1 h)
    exact congrArg Host.Outcome.next (if_pos ⟨quieting, drained⟩)
  · refine congrArg Host.Outcome.next (if_neg fun ⟨quieting, drained⟩ => ?_)
    rcases h with h | h
    · exact h quieting
    · rw [s.drained_false_iff.2 h] at drained
      cases drained
  · exact congrArg Host.Outcome.next (State.dispatchWake_unsuited hd hk (bodyNone_of_ne hb))
  · refine congrArg Host.Outcome.next ?_
    rw [State.dispatchWake_suited hd hk hb, State.wake_eq, h]
    rfl
  · refine congrArg Host.Outcome.next ?_
    rw [State.dispatchWake_suited hd hk hb, State.wake_eq, h]
    rfl
  · refine congrArg Host.Outcome.next ?_
    rw [State.dispatchWake_suited hd hk hb, State.wake_eq, h]
    have same : ({ s with runState := RunState.run.woken } : State) = s := by
      rw [show RunState.run.woken = s.runState from h.symm]
    rw [same]
    cases r.woke <;> rfl

end Sys2Proof.Machine
end

section
/-! PROOFS. Restarts: the clearing, the setup read, RESET and power (R189 to R195, R216). -/

namespace Sys2Proof.Machine

/-! ### The clearing -/

theorem State.clearing_mapSlot (s : State) (g : Seg) (a : Byte) : s.clearing.mapSlot g a = .empty := by
  unfold State.mapSlot
  split
  · simp [State.clearing]
  · rfl

theorem State.clearedTo_clearing (s : State) : s.clearedTo s.clearing := by
  refine ⟨rfl, rfl, rfl, rfl, rfl, fun h => State.clearing_entry s h, State.clearing_mapSlot s, fun p => ?_, fun g => ?_⟩
  · rw [State.clearing_port]
    refine ⟨fun i => ?_, rfl, rfl, rfl, rfl, ?_, rfl, rfl, fun h => ?_⟩
    · rw [State.slot, State.clearing_port]; simp [PortState.emptied, PortState.freed]
    · rfl
    · simp [PortState.emptied, resetNotices]
  · rw [State.clearing_engine]; rfl

theorem State.dispatchRestart_of_heads {s : State} {p : PortId} {i : SlotIx} {r : Request} {rest : List SlotIx}
    (hd : s.heads p i r rest) (hk : r.kind = .restart) {k : RestartKind} (hb : bodyRestart r.body = some k) (f : State → State) :
    s.dispatchRestart p k f = f s := by
  rw [State.dispatchRestart, State.dispatch_of_heads hd hk, hb]
  exact if_pos rfl

/-- Settles O32. -/
theorem clearingEmptiesThePart : Obligations.ClearingEmptiesThePart := by
  refine ⟨fun s p i r rest hd hk hb => ⟨s.clearing, ?_, s.clearedTo_clearing, rfl⟩,
    fun s n => ⟨fun counting long => ?_, fun h => ?_⟩⟩
  · exact congrArg Host.Outcome.next (State.dispatchRestart_of_heads hd hk (by rw [hb]; rfl) _)
  · exact ⟨({ s with prescaler := .start } : State).clearing, congrArg Host.Outcome.next (if_pos ⟨long, counting⟩),
      State.clearedTo_clearing { s with prescaler := .start }, rfl⟩
  · refine congrArg Host.Outcome.next (if_neg fun ⟨long, counting⟩ => ?_)
    rcases h with h | h
    · exact h counting
    · exact absurd long (Nat.not_le.2 h)

/-! ### The setup read -/

theorem imageSegments_getElem (m : Image) (g : Seg) : (imageSegments m)[g] = imageSegment m g := by
  fin_cases g <;> rfl

theorem word16_eq_iff (hi lo : Byte) (v : BitVec 16) :
    word16 hi lo = v ↔ 256 * hi.toNat + lo.toNat = v.toNat := by
  rw [← word16_toNat, BitVec.toNat_inj]

theorem imageRate_eq (b : Byte) : (b.extractLsb' 0 3).toNat = b.toNat % 8 := by simp

theorem SegSetup.inRange_imageSegment (m : Image) (g : Seg) :
    (imageSegment m g).inRange = true ↔ ((setupByte m 2).getLsbD g.val = true →
      1 ≤ (setupByte m (3 + 3 * g.val)).toNat ∧ (setupByte m (3 + 3 * g.val)).toNat ≤ (setupByte m (4 + 3 * g.val)).toNat ∧
        (setupByte m (4 + 3 * g.val)).toNat ≤ 200 ∧ (setupByte m (5 + 3 * g.val)).toNat % 8 ≤ 5) := by
  have same (k : Nat) : imageByte m k = setupByte m k := rfl
  simp only [SegSetup.inRange, imageSegment, same]
  cases (setupByte m 2).getLsbD g.val
  · simp
  · simp only [if_true, Bool.not_true, Bool.false_or, imageRate_eq, Bool.and_eq_true, decide_eq_true_eq, true_imp_iff,
      and_assoc]

theorem imageAccepted_iff (m : Image) : imageAccepted m = true ↔ setupAccepted m := by
  have signature : word16 (imageByte m 0) (imageByte m 1) = 0x6B3D ↔ setupByte m 0 = 0x6B ∧ setupByte m 1 = 0x3D := by
    have := (setupByte m 1).isLt
    rw [word16_eq_iff, ← BitVec.toNat_inj, ← BitVec.toNat_inj]
    change 256 * (setupByte m 0).toNat + (setupByte m 1).toNat = 27453 ↔ _ = 107 ∧ _ = 61
    omega
  have ranges : (imageSegments m).all SegSetup.inRange = true ↔ ∀ g : Seg, (imageSegment m g).inRange = true := by
    rw [Vector.all_eq_true]
    exact ⟨fun h g => imageSegments_getElem m g ▸ h g.val g.isLt, fun h k hk => imageSegments_getElem m ⟨k, hk⟩ ▸ h ⟨k, hk⟩⟩
  simp only [imageAccepted, Bool.and_eq_true, beq_iff_eq, signature, ranges, SegSetup.inRange_imageSegment, setupAccepted,
    and_assoc]
  rfl

theorem setupOf_loaded_iff (image : Option Image) :
    (setupOf image).loaded = true ↔ ∃ m, image = some m ∧ setupAccepted m := by
  cases image with
  | none => simp [setupOf, defaultSetup]
  | some m =>
    simp only [setupOf, Option.some.injEq, exists_eq_left', ← imageAccepted_iff]
    split <;> simp_all [defaultSetup]

theorem setupOf_accepted {m : Image} (h : setupAccepted m) (g : Seg) : (setupOf (some m)).segments[g] = imageSegment m g := by
  rw [setupOf, if_pos ((imageAccepted_iff m).2 h)]
  exact imageSegments_getElem m g

theorem setupOf_default {image : Option Image} (h : (setupOf image).loaded = false) (g : Seg) :
    (setupOf image).segments[g] = defaultSegSetup := by
  have default : setupOf image = defaultSetup := by
    cases image with
    | none => rfl
    | some m =>
      by_cases ok : imageAccepted m = true
      · rw [setupOf, if_pos ok] at h
        cases h
      · exact if_neg ok
  rw [default]
  simp [defaultSetup]

/-- The part once it is in RUN: its notices are raised over the base of `State.runBase`. -/
def State.running (s : State) (x : Setup) : State :=
  if x.loaded then (s.runBase x).noticed .restarted else ((s.runBase x).noticed .restarted).noticed .setupDefaulted

theorem State.enterRun_running {s : State} (loading : s.runState = .starting .loading) (image : Option Image) :
    s.enterRun image = s.running (setupOf image) := by
  rw [State.enterRun_eq s image loading]
  simp only [State.raise_eq]
  rfl

theorem State.noticed_run {s : State} (run : s.runState = .run) (n : Notice) : (s.noticed n).runState = .run := by
  simp [State.noticed, run, RunState.woken]

/-- Entering RUN writes what the base writes, and the notice units (R195). -/
theorem State.running_frame (s : State) (x : Setup) :
    (s.running x).runState = .run ∧ (s.running x).seeding = true ∧ (s.running x).entries = s.entries ∧
      (s.running x).maps = s.maps ∧ (s.running x).prescaler = s.prescaler ∧ (s.running x).pending = s.pending ∧
      (s.running x).freeCount = s.freeCount ∧ (s.running x).setup = x ∧
      (∀ g, (s.running x).engine g = (s.engine g).started x.segments[g]) := by
  unfold State.running
  split
  · exact ⟨State.noticed_run rfl _, rfl, rfl, rfl, rfl, rfl, rfl, rfl, fun g => by simp⟩
  · exact ⟨State.noticed_run (State.noticed_run rfl _) _, rfl, rfl, rfl, rfl, rfl, rfl, rfl, fun g => by simp⟩

theorem State.running_port (s : State) (x : Setup) (q : PortId) :
    (s.running x).port q =
      { s.port q with
        notices := { (s.port q).notices with
          sticky := (s.port q).notices.sticky ||| (if x.loaded then 0x0800 else 0x1800) } } := by
  have base : (s.runBase x).port q = s.port q := by cases q <;> rfl
  unfold State.running
  split
  · rw [State.noticed_port, base]; rfl
  · rw [State.noticed_port, State.noticed_port, base]
    simp only [PortState.flagged, BitVec.or_assoc]
    rfl

/-- Settles O34: a whole read enters RUN with the setup it gives. -/
theorem setupReadEndEntersRun : Obligations.SetupReadEndEntersRun := by
  refine ⟨fun s k => ⟨fun loading => ?_, fun other => ?_⟩, fun s line h1 h2 => ?_, fun s image loading => ?_⟩
  · have drive : s.setupData k = setupDrive k := by rw [State.setupData, loading]; rfl
    exact ⟨fun low high => drive.trans (if_pos ⟨low, high⟩), fun released => drive.trans (if_neg (by omega))⟩
  · have no : s.runState.isLoading = false := by
      unfold RunState.isLoading
      split
      · rename_i loading; exact absurd loading other
      all_goals rfl
    rw [State.setupData, no]; rfl
  · have broken : setupRead line = none := by
      unfold setupRead
      split
      · exact absurd rfl h1
      · rename_i bits; exact if_neg (h2 bits rfl)
      · rfl
    change Host.Outcome.next (s.readEnds line) = _
    rw [State.readEnds, broken]
  · intro line
    have read : setupRead line = some image := by
      cases image with
      | none => rfl
      | some m => exact setupRead_image m
    have ends : exec (.setupReadEnd line) s = .next (s.running (setupOf image)) := by
      change Host.Outcome.next (s.readEnds line) = _
      rw [State.readEnds, read]
      exact congrArg Host.Outcome.next (State.enterRun_running loading image)
    obtain ⟨run, seeding, entries, maps, prescaler, pending, freeCount, setup, engine⟩ := s.running_frame (setupOf image)
    have segSetup (g : Seg) : (s.running (setupOf image)).segSetup g = (setupOf image).segments[g] := by
      rw [State.segSetup, setup]
    refine ⟨_, ends, run, seeding, entries, maps, prescaler, pending, freeCount, ?_, ?_, ?_, fun g => ?_, fun q => ?_⟩
    · rw [setup]; exact setupOf_loaded_iff image
    · rintro m rfl ok g
      rw [segSetup, setupOf_accepted ok]
      refine ⟨rfl, rfl, rfl, fun fit => ?_⟩
      have fit' : (setupByte m 2).getLsbD g.val = true := fit
      have fit'' : (imageByte m 2).getLsbD g.val = true := fit
      simp only [imageSegment, fit'', if_true, imageRate_eq]
      refine ⟨rfl, rfl, rfl, ?_⟩
      unfold modeOf
      change (if (setupByte m (5 + 3 * g.val)).getLsbD 4 = true then IntakeMode.portAFirst else .roundRobin) = _ ↔ _
      split <;> simp_all
    · intro unloaded g
      rw [setup] at unloaded
      rw [segSetup, setupOf_default unloaded]
      rfl
    · rw [engine, segSetup]; rfl
    · rw [State.running_port, setup]

/-! ### RESET and power -/

/-- Settles O35. -/
theorem resetEntersSettling : Obligations.ResetEntersSettling := by
  intro s taken
  have takes (u : State) (engines : u.engines = s.engines) (prescaler : u.prescaler = s.prescaler) (pending : u.pending = s.pending)
      (setup : u.setup = s.setup) (entries : u.entries = s.entries) (maps : u.maps = s.maps) (seeding : u.seeding = s.seeding)
      (portA : u.portA = s.portA) (portB : u.portB = s.portB) : taken u.freeCount u.takeReset := by
    refine ⟨rfl, ?_, pending, setup, entries, maps, seeding, portA, portB, rfl, fun g => ?_⟩
    · rw [← prescaler]; rfl
    · rw [State.takeReset_engine, show u.engine g = s.engine g by rw [State.engine, engines, ← State.engine]]
      rfl
  refine ⟨fun w short => ?_, fun w long => ⟨s.takeReset, ?_, takes s rfl rfl rfl rfl rfl rfl rfl rfl rfl⟩, fun w low high => ?_,
    ⟨s.takeReset, rfl, takes s rfl rfl rfl rfl rfl rfl rfl rfl rfl⟩, fun settling => ?_, fun settled => ?_⟩
  · exact congrArg Host.Outcome.next (if_pos short)
  · have notShort : ¬ w < 16 := by omega
    exact congrArg Host.Outcome.next ((if_neg notShort).trans (if_pos long))
  · have notShort : ¬ w < 16 := by omega
    have notLong : ¬ 64 ≤ w := by omega
    have pulse : exec (.resetTaken w) s = .next
        (if Config.pulseTaken s.freeCount then ({ s with freeCount := s.freeCount + 1 } : State).takeReset
          else { s with freeCount := s.freeCount + 1 }) :=
      congrArg Host.Outcome.next ((if_neg notShort).trans (if_neg notLong))
    refine ⟨_, pulse, ?_⟩
    split
    · exact .inr (takes { s with freeCount := s.freeCount + 1 } rfl rfl rfl rfl rfl rfl rfl rfl rfl)
    · exact .inl rfl
  · change Host.Outcome.next s.releaseReset = _
    unfold State.releaseReset
    cases hr : s.runState with
    | starting ph =>
      rw [hr] at settling
      cases ph with
      | settling b => rfl
      | clearing | loading => cases settling
    | run | quieting | quiet => rw [hr] at settling; cases settling
  · change Host.Outcome.next s.releaseReset = _
    unfold State.releaseReset
    split
    · rename_i hr; rw [hr] at settled; cases settled
    all_goals rfl

end Sys2Proof.Machine
end

section
/-! PROOFS. SET_SEGMENT without switch-off or lowering, GET_SEGMENT, and the poll timer (R74, R75, R97 to R104). -/

namespace Sys2Proof.Machine

/-! ### SET_SEGMENT and GET_SEGMENT -/

/-- An update of an engine is what it makes of that engine. -/
theorem State.updEngine_congr {s : State} {g : Seg} {f k : Engine → Engine} (h : f (s.engine g) = k (s.engine g)) :
    s.updEngine g f = s.updEngine g k := by
  unfold State.updEngine
  rw [h]

/-- The settings that a SET_SEGMENT body gives (R73, R210). -/
def settingsOf (on per mul thr gra ret dis md : Byte) : Settings :=
  { on := on == 1, period := per.toNat, multiplier := mul.toNat, threshold := thr.toNat, grace := gra.toNat,
    retries := ret.toNat, discovery := dis.toNat, mode := if md = 1 then .portAFirst else .roundRobin }

section
variable {on per mul thr gra ret dis md : Byte}

theorem bodySetSegment_some (g : Seg) (hon : on.toNat ≤ 1) (hper : per.toNat ≤ 7) (hmul : mul.toNat ≤ 3) (hlow : 1 ≤ thr.toNat)
    (hthr : thr.toNat ≤ 7) (hgra : gra.toNat ≤ 15) (hret : ret.toNat ≤ 3) (hdis : dis.toNat ≤ 15) (hmd : md.toNat ≤ 1) :
    bodySetSegment [byte g.val, on, per, mul, thr, gra, ret, dis, md] =
      some (g, settingsOf on per mul thr gra ret dis md) := by
  simp only [bodySetSegment, segOf_byte, flagOf_some hon, flagOf_some hmd, hper, hmul, hlow, hthr, hgra, hret, hdis,
    decide_true, Bool.and_self, if_true, decide_eq_true_eq, settingsOf]
  rfl

theorem bodySetSegment_none {b : Byte}
    (bad : 3 < b.toNat ∨ 1 < on.toNat ∨ 7 < per.toNat ∨ 3 < mul.toNat ∨ thr = 0 ∨ 7 < thr.toNat ∨ 15 < gra.toNat ∨
      3 < ret.toNat ∨ 15 < dis.toNat ∨ 1 < md.toNat) :
    bodySetSegment [b, on, per, mul, thr, gra, ret, dis, md] = none := by
  simp only [bodySetSegment]
  split
  · rename_i hb hon hmd
    refine if_neg fun ok => ?_
    simp only [Bool.and_eq_true, decide_eq_true_eq] at ok
    obtain ⟨⟨⟨⟨⟨⟨hper, hmul⟩, hlow⟩, hthr⟩, hgra⟩, hret⟩, hdis⟩ := ok
    have low := one_le_toNat.1 hlow
    rcases bad with h | h | h | h | h | h | h | h | h | h
    · rw [segOf_none b h] at hb; cases hb
    · rw [flagOf_none on h] at hon; cases hon
    · omega
    · omega
    · exact low h
    · omega
    · omega
    · omega
    · omega
    · rw [flagOf_none md h] at hmd; cases hmd
  · rfl

/-- The settings sent back are the bytes of the body. -/
theorem settingsOf_bytes (hon : on.toNat ≤ 1) (hmd : md.toNat ≤ 1) :
    (settingsOf on per mul thr gra ret dis md).bytes = [on, per, mul, thr, gra, ret, dis, md] := by
  have back (b : Byte) : byte b.toNat = b := by simp [byte]
  have bit {b : Byte} (h : b.toNat ≤ 1) : boolByte (b == 1) = b := by
    rcases Nat.le_one_iff_eq_zero_or_eq_one.1 h with h | h
    · rw [show b = 0 from BitVec.eq_of_toNat_eq h]; rfl
    · rw [show b = 1 from BitVec.eq_of_toNat_eq h]; rfl
  have mode : modeCode (if md = 1 then .portAFirst else .roundRobin) = boolByte (md == 1) := by
    by_cases h : md = 1
    · rw [if_pos h, h]; rfl
    · rw [if_neg h, beq_eq_false_iff_ne.2 h]; rfl
  simp only [settingsOf, Settings.bytes, back, bit hon, mode, bit hmd]

end

/-- A SET_SEGMENT that passes its checks answers with the settings and the engine state as they stand then. -/
theorem serveSetSegment_passed {s : State} {p : PortId} {body : List Byte} {g : Seg} {x : Settings}
    (hb : bodySetSegment body = some (g, x)) (permit : s.permits p g = true) (fit : (s.segSetup g).fitted = true) :
    serveSetSegment s p body =
      (s.applySettings g x,
        ⟨.ok, 0, ((s.applySettings g x).engine g).settings.bytes ++ [engineCode ((s.applySettings g x).engine g).state]⟩) := by
  rw [serveSetSegment, hb]
  exact if_neg (by simp [permit, fit])

theorem serveSetSegment_refused {s : State} {p : PortId} {body : List Byte} {g : Seg} {x : Settings}
    (hb : bodySetSegment body = some (g, x)) (no : s.permits p g = false ∨ (s.segSetup g).fitted = false) :
    serveSetSegment s p body = (s, Answer.bare .notPermitted 0) := by
  rw [serveSetSegment, hb]
  exact if_pos no

/-- The engine state after a SET_SEGMENT that switches nothing off: an OFF engine becomes IDLE when on/off is on (R93). -/
def Engine.stateSet (e : Engine) (on : Bool) : EngineState := if on = true ∧ e.state = .off then .idle else e.state

/-- What such a SET_SEGMENT writes in the engine (R74, R93, R104). -/
def Engine.set (e : Engine) (x : Settings) : Engine :=
  { e with settings := x, state := e.stateSet x.on, expiries := if x.discovery = 0 then 0 else e.expiries }

theorem settingsOf_expiries_set (e : Engine) (on per mul thr gra ret dis md : Byte) :
    e.set (settingsOf on per mul thr gra ret dis md) =
      { e with
        settings := settingsOf on per mul thr gra ret dis md
        state := e.stateSet (settingsOf on per mul thr gra ret dis md).on
        expiries := if dis = 0 then 0 else e.expiries } := by
  have zero : dis.toNat = 0 ↔ dis = 0 := by rw [← BitVec.toNat_inj]; rfl
  simp only [Engine.set, settingsOf, zero]

/-- A SET_SEGMENT that switches nothing off and lowers no T writes the engine alone. -/
theorem State.applySettings_written {s : State} {g : Seg} {x : Settings}
    (stays : x.on = true ∨ (x.on = false ∧ (s.engine g).settings.on = false ∧ (s.engine g).state ≠ .fault))
    (low : s.threshold g ≤ x.threshold) : s.applySettings g x = s.updEngine g fun e => e.set x := by
  have written : s.settingsWritten g x = s.updEngine g (·.write x) := if_neg (by omega)
  rw [State.applySettings_eq, written]
  rcases stays with on | ⟨off, old, ok⟩
  · rw [if_pos on]
    split
    · rename_i hoff
      rw [State.updEngine_updEngine]
      exact State.updEngine_congr (by simp [Engine.write, Engine.set, Engine.stateSet, on, hoff])
    · rename_i hon
      exact State.updEngine_congr (by simp [Engine.write, Engine.set, Engine.stateSet, hon])
  · rw [if_neg (by simp [off]), if_neg (by simp [old, ok])]
    exact State.updEngine_congr (by simp [Engine.write, Engine.set, Engine.stateSet, off])

/-- Settles O36. -/
theorem setSegmentWritesTheSettings : Obligations.SetSegmentWritesTheSettings := by
  intro s p i r rest b on per mul thr gra ret dis md hd hk hb
  refine ⟨fun bad => ?_, ?_⟩
  · refine congrArg Host.Outcome.next (State.serve_same hd hk serveSetSegment (ans := badRequest) ?_)
    simp only [serveSetSegment, hb, bodySetSegment_none bad]
  · rintro hon hper hmul hlow hthr hgra hret hdis hmd g rfl
    have suited : bodySetSegment r.body = some (g, settingsOf on per mul thr gra ret dis md) :=
      hb ▸ bodySetSegment_some g hon hper hmul hlow hthr hgra hret hdis hmd
    refine ⟨fun no => ?_, fun permit fit stays low => ?_⟩
    · exact congrArg Host.Outcome.next (State.serve_same hd hk serveSetSegment (serveSetSegment_refused suited no))
    · intro state
      have one : (settingsOf on per mul thr gra ret dis md).on = true ↔ on = 1 := by simp [settingsOf]
      have stays' : (settingsOf on per mul thr gra ret dis md).on = true ∨
          ((settingsOf on per mul thr gra ret dis md).on = false ∧ (s.engine g).settings.on = false ∧
            (s.engine g).state ≠ .fault) := by
        rcases stays with h | ⟨h, rest⟩
        · exact .inl (one.2 h)
        · exact .inr ⟨by rw [h]; rfl, rest⟩
      have applied := State.applySettings_written stays' (show s.threshold g ≤ thr.toNat from low)
      have code : (s.engine g).stateSet (settingsOf on per mul thr gra ret dis md).on = state := by
        simp only [Engine.stateSet, one]
        rfl
      have served := serveSetSegment_passed suited permit fit
      rw [applied, State.updEngine_engine_same] at served
      have answer : ((s.engine g).set (settingsOf on per mul thr gra ret dis md)).settings.bytes ++
          [engineCode ((s.engine g).set (settingsOf on per mul thr gra ret dis md)).state] =
            [on, per, mul, thr, gra, ret, dis, md, engineCode state] := by
        simp only [Engine.set, settingsOf_bytes hon hmd, code]
        rfl
      rw [answer] at served
      refine congrArg Host.Outcome.next ((State.serve_of_heads hd hk serveSetSegment served (by simp) (by simp)).trans ?_)
      rw [State.updEngine_congr]
      rw [settingsOf_expiries_set, code]
      rfl

/-- Settles O39. -/
theorem getSegmentReportsTheSegment : Obligations.GetSegmentReportsTheSegment := by
  intro s p i r rest b hd hk hb
  refine ⟨fun bad => ?_, ?_⟩
  · refine congrArg Host.Outcome.next (State.serve_same hd hk serveGetSegment (ans := badRequest) ?_)
    simp only [serveGetSegment, hb, bodySegment, segOf_none b bad]
  · rintro g rfl e x bit settings
    have bytes : e.settings.bytes = settings := by
      simp only [Settings.bytes, settings]
      cases e.settings.mode <;> rfl
    have served : serveGetSegment s p r.body = (s, ⟨.ok, 0, if x.fitted then segmentBody e x else unfittedBody e x⟩) := by
      rw [serveGetSegment, hb, bodySegment, segOf_byte]
    refine ⟨fun fit => ?_, fun unfit => ?_⟩
    · rw [if_pos fit, segmentBody, bytes] at served
      exact congrArg Host.Outcome.next (State.serve_same hd hk serveGetSegment served)
    · rw [if_neg (by simp [unfit]), unfittedBody, bytes] at served
      exact congrArg Host.Outcome.next (State.serve_same hd hk serveGetSegment served)

/-! ### The poll timer -/

/-- The measured run at an expiry touches the line's measures alone. -/
theorem State.measuredFrom_measured (s : State) (g : Seg) (run : Nat) : s.measuredFrom (s.updLine g (·.measured run)) g := by
  by_cases h0 : run = 0
  · refine ⟨(s.engine g).line.level, (s.engine g).line.pin, (s.engine g).line.held, 0, (s.engine g).line.dominantRun, ?_⟩
    rw [State.updLine_eq, State.updLine_eq]
    exact State.updEngine_congr (by simp [Line.measured, h0])
  · refine ⟨.recessive, .recessive, 0, run, 0, ?_⟩
    rw [State.updLine_eq, State.updLine_eq]
    exact State.updEngine_congr (by simp [Line.measured, h0, Line.sawRecessive])

@[simp] theorem Line.measured_recessiveRun (l : Line) (run : Nat) : (l.measured run).recessiveRun = run := by
  unfold Line.measured
  split
  · rename_i h0; exact h0.symm
  · rfl

/-- An expiry marks an engine that works while the window is closed, and is counted in RUN (R102, R104). -/
def State.expiryMarks (s : State) (g : Seg) : Prop :=
  (s.engine g).state ≠ .off ∧ (s.engine g).state ≠ .fault ∧ s.seeding = false

theorem State.expire_marked {s : State} {g : Seg} (h : s.expiryMarks g) :
    s.expire g =
      if s.runState = .run then s.updEngine g fun e => { e with pollDue := true }.countExpiry
      else s.updEngine g fun e => { e with pollDue := true } := by
  obtain ⟨off, fault, closed⟩ := h
  unfold State.expire
  rw [closed]
  cases hs : (s.engine g).state with
  | off => exact absurd hs off
  | fault => exact absurd hs fault
  | idle | transaction | contest =>
    dsimp only
    rw [if_neg Bool.false_ne_true]
    split
    · rw [State.updEngine_updEngine]
    · rfl

theorem State.expire_unmarked {s : State} {g : Seg} (h : ¬ s.expiryMarks g) : s.expire g = s := by
  unfold State.expire
  cases hs : (s.engine g).state with
  | off | fault => rfl
  | idle | transaction | contest =>
    have opened : s.seeding = true := by
      rw [← Bool.not_eq_false]
      exact fun closed => h ⟨by simp [hs], by simp [hs], closed⟩
    exact if_pos opened

/-- What an expiry makes of the engine: its two marks and its count. -/
def State.expired (s : State) (g : Seg) (e : Engine) : Engine :=
  if (s.engine g).state ≠ .off ∧ (s.engine g).state ≠ .fault ∧ s.seeding = false then
    if s.runState = .run then { e with pollDue := true }.countExpiry else { e with pollDue := true }
  else e

theorem State.expire_eq (s : State) (g : Seg) : s.expire g = s.updEngine g (s.expired g) := by
  unfold State.expired
  split
  · rename_i h
    rw [State.expire_marked h]
    split <;> rfl
  · rename_i h
    rw [State.expire_unmarked h, State.updEngine_id]

/-- The count of expiries and discovery-due in the three cases of R104; nothing else moves. -/
theorem Engine.countExpiry_eq (e : Engine) :
    e.countExpiry = { e with expiries := e.countExpiry.expiries, discoveryDue := e.countExpiry.discoveryDue } := by
  unfold Engine.countExpiry
  (repeat' split) <;> rfl

theorem Engine.countExpiry_off {e : Engine} (h : e.settings.discovery = 0) :
    e.countExpiry = { e with expiries := 0 } := if_pos h

theorem Engine.countExpiry_below {e : Engine} (h : e.expiries + 1 < e.settings.discovery) :
    e.countExpiry = { e with expiries := e.expiries + 1 } := by
  rw [Engine.countExpiry, if_neg (by omega), if_neg (by omega)]

theorem Engine.countExpiry_reached {e : Engine} (h1 : 1 ≤ e.settings.discovery) (h : e.settings.discovery ≤ e.expiries + 1) :
    e.countExpiry = { e with expiries := 0, discoveryDue := true } := by
  rw [Engine.countExpiry, if_neg (by omega), if_pos h]

theorem State.expired_eq (s : State) (g : Seg) (e : Engine) :
    s.expired g e =
      { e with
        pollDue := (s.expired g e).pollDue, expiries := (s.expired g e).expiries
        discoveryDue := (s.expired g e).discoveryDue } := by
  unfold State.expired
  split
  · split
    · have counted := Engine.countExpiry_eq { e with pollDue := true }
      rw [counted]
    · rfl
  · rfl

theorem periodMs_eq {code : Nat} (h : code ≤ 7) : periodMs code = [10, 20, 50, 100, 200, 500, 1000, 2000].getD code 0 := by
  interval_cases code <;> rfl

theorem multiplierFactor_eq {code : Nat} (h : code ≤ 3) : multiplierFactor code = [4, 16, 64, 256].getD code 0 := by
  interval_cases code <;> rfl

theorem State.periodLength_eq {s : State} {g : Seg} (h1 : (s.engine g).settings.period ≤ 7)
    (h2 : (s.engine g).settings.multiplier ≤ 3) :
    s.periodLength g = [10, 20, 50, 100, 200, 500, 1000, 2000].getD (s.engine g).settings.period 0 *
      (if s.runState = .quiet then [4, 16, 64, 256].getD (s.engine g).settings.multiplier 0 else 1) := by
  rw [State.periodLength, periodMs_eq h1, multiplierFactor_eq h2]
  split
  · rfl
  · rw [Nat.mul_one]

theorem State.timerExpires_over {s : State} {g : Seg} {count : PollCount} {len : Nat} (live : s.runState.isStarting = false)
    (timer : (s.engine g).timer = some len) (over' : len ≤ count.ticks) :
    s.timerExpires g count =
      (((s.updLine g (·.measured count.run)).recover g).expire g).updEngine g fun e =>
        { e with timer := some ((((s.updLine g (·.measured count.run)).recover g).expire g).periodLength g) } := by
  rw [State.timerExpires, if_pos ⟨live, by simp [Engine.periodOver, timer, over']⟩]

theorem State.timerExpires_early {s : State} {g : Seg} {count : PollCount} {len : Nat}
    (timer : (s.engine g).timer = some len) (early : count.ticks < len) : s.timerExpires g count = s := by
  refine if_neg fun ⟨_, h⟩ => ?_
  simp only [Engine.periodOver, timer, decide_eq_true_eq] at h
  omega

/-- Settles O40: measuring, recovery, the marks, then the next period. -/
theorem pollTimerExpiryMarksOrRecovers : Obligations.PollTimerExpiryMarksOrRecovers := by
  intro s g ticks run len live timer expiry
  refine ⟨fun early => congrArg Host.Outcome.next (State.timerExpires_early timer early), fun over' => ?_⟩
  intro e recovers
  let u := s.updLine g (·.measured run)
  let v := u.recover g
  have uEngine : u.engine g = { e with line := e.line.measured run } := State.updEngine_engine_same ..
  have iff : ((u.engine g).state = .fault ∧ Config.stuckTime ≤ (u.engine g).line.recessiveRun) ↔ recovers := by
    rw [uEngine, Line.measured_recessiveRun]; rfl
  have notRecovers (h : ¬ recovers) : v = u := if_neg (fun n => h (iff.1 n))
  have doesRecover (h : recovers) : v = (u.updEngine g fun x =>
      { x with state := if e.settings.on then .idle else .off }).noticed .segRecovered := by
    rw [← State.raise_eq]
    refine (if_pos (iff.2 h)).trans (congrArg (State.raise · .segRecovered) (State.updEngine_congr ?_))
    rw [uEngine]
  have vEngine : v.engine g = { u.engine g with state := (v.engine g).state } := by
    by_cases h : recovers
    · rw [doesRecover h, State.noticed_engine, State.updEngine_engine_same]
    · rw [notRecovers h]
  have vSeeding : v.seeding = s.seeding := by
    by_cases h : recovers
    · rw [doesRecover h]; rfl
    · rw [notRecovers h]; rfl
  let n := (v.expire g).periodLength g
  let t := v.updEngine g fun x => { v.expired g x with timer := some n }
  have steps : exec expiry s = .next t := by
    refine congrArg Host.Outcome.next ((State.timerExpires_over live timer over').trans ?_)
    change (v.expire g).updEngine g (fun e => { e with timer := some n }) = _
    rw [State.expire_eq, State.updEngine_updEngine]
  have tEngine : t.engine g = { v.expired g (v.engine g) with timer := some n } := State.updEngine_engine_same ..
  have settings : ((v.expire g).engine g).settings = e.settings := by
    rw [State.expire_eq, State.updEngine_engine_same, State.expired_eq, vEngine, uEngine]
  have runState : (v.expire g).runState = v.runState := by rw [State.expire_eq]; rfl
  have pollDue : (v.engine g).pollDue = e.pollDue := by rw [vEngine, uEngine]
  have expiries : (v.engine g).expiries = e.expiries := by rw [vEngine, uEngine]
  have discoveryDue : (v.engine g).discoveryDue = e.discoveryDue := by rw [vEngine, uEngine]
  have discovery : (v.engine g).settings.discovery = e.settings.discovery := by rw [vEngine, uEngine]
  refine ⟨t, u, v, steps, s.measuredFrom_measured g run, notRecovers, doesRecover, State.updEngine_congr ?_, ?_⟩
  · rw [tEngine]
    dsimp only
    rw [State.expired_eq]
  · intro marks counted
    have marked (h : marks) : v.expired g (v.engine g) =
        if v.runState = .run then { v.engine g with pollDue := true }.countExpiry else { v.engine g with pollDue := true } := by
      refine if_pos ?_
      rw [vSeeding]
      exact h
    have unmarked (h : ¬ marks) : v.expired g (v.engine g) = v.engine g := by
      refine if_neg fun n => h ?_
      rw [vSeeding] at n
      exact n
    have whenCounted (h : counted) : v.expired g (v.engine g) = { v.engine g with pollDue := true }.countExpiry := by
      rw [marked h.1, if_pos h.2]
    rw [tEngine]
    refine ⟨⟨fun h => ?_, fun h => ?_⟩, fun h h0 => ?_, fun h below => ?_, fun h low reached => ?_, fun h => ?_, n, rfl,
      fun h1 h2 => ?_⟩
    · by_cases hm : marks
      · exact .inr hm
      · rw [unmarked hm, pollDue] at h
        exact .inl h
    · by_cases hm : marks
      · rw [marked hm]
        split
        · rw [Engine.countExpiry_eq]
        · rfl
      · rw [unmarked hm, pollDue]
        exact h.resolve_right hm
    · rw [whenCounted h,
        Engine.countExpiry_off (e := { v.engine g with pollDue := true }) (discovery.trans h0)]
      exact ⟨rfl, discoveryDue⟩
    · rw [whenCounted h,
        Engine.countExpiry_below (e := { v.engine g with pollDue := true }) (by rw [← expiries, ← discovery] at below; exact below)]
      exact ⟨congrArg (· + 1) expiries, discoveryDue⟩
    · rw [whenCounted h,
        Engine.countExpiry_reached (e := { v.engine g with pollDue := true }) (discovery.symm ▸ low) (by rw [← expiries, ← discovery] at reached; exact reached)]
      exact ⟨rfl, rfl⟩
    · by_cases hm : marks
      · rw [marked hm, if_neg fun run => h ⟨hm, run⟩]
        exact ⟨expiries, discoveryDue⟩
      · rw [unmarked hm]
        exact ⟨expiries, discoveryDue⟩
    · have length := State.periodLength_eq (s := v.expire g) (g := g) (by rw [settings]; exact h1) (by rw [settings]; exact h2)
      rw [settings, runState] at length
      exact length

end Sys2Proof.Machine
end

section
/-! PROOFS. Attempts through their phases, repeated attempts, contests, and the answers at the end of a pass (R55 to R70, R84, R125,
R138). -/

namespace Sys2Proof.Machine

/-! ### The attempt in progress -/

theorem State.inPhase_eq {s : State} {g : Seg} {t : Attempt} (ht : (s.engine g).line.attempt = some t) (phs : List AttemptPhase) :
    s.inPhase g phs = phs.contains t.phase := by
  rw [State.inPhase, State.attempt, ht]

theorem State.openRun_eq {s : State} {g : Seg} {t : Attempt} (ht : (s.engine g).line.attempt = some t) :
    s.openRun g = t.openRun := by
  rw [State.openRun, State.attempt, ht]

/-- The attempt goes on, on the line as measured. -/
theorem State.updAttempt_eq {s : State} {g : Seg} {t : Attempt} (ht : (s.engine g).line.attempt = some t) {f : Line → Line}
    (hf : (f (s.engine g).line).attempt = (s.engine g).line.attempt) (k : Attempt → Attempt) :
    (s.updLine g f).updAttempt g k = s.updLine g fun l => { f l with attempt := some (k t) } := by
  unfold State.updAttempt
  rw [State.updLine_eq, State.updLine_eq, State.updLine_eq, State.updEngine_updEngine]
  refine State.updEngine_congr ?_
  simp [hf, ht]

theorem State.updLine_id (s : State) (g : Seg) : s.updLine g id = s := by simp [State.updLine_eq]

theorem State.updAttempt_alone {s : State} {g : Seg} {t : Attempt} (ht : (s.engine g).line.attempt = some t)
    (k : Attempt → Attempt) : s.updAttempt g k = s.updLine g fun l => { id l with attempt := some (k t) } := by
  have h := State.updAttempt_eq (f := id) ht rfl k
  rwa [State.updLine_id] at h

/-- Settles O48: each event writes the attempt's phase, over the line as measured. -/
theorem attemptsMoveThroughTheirPhases : Obligations.AttemptsMoveThroughTheirPhases := by
  intro s g t ht goes
  have attempt : s.attempt g = some t := ht
  refine ⟨fun run hp idle long => ?_, fun hp addressed => ?_, fun hp => ⟨fun expects => ?_, fun unbound => ?_⟩,
    fun k bit place => ?_, fun read hp h0 h1 => ?_, fun mark d takes => ?_, fun ch hp hopen => ⟨fun none => ?_, fun low bad => ?_⟩⟩
  · refine congrArg Host.Outcome.next ?_
    rw [State.idleGap, if_pos ⟨long, idle, by rw [State.inPhase_eq ht, hp]; rfl⟩]
    exact State.updAttempt_eq ht rfl _
  · refine congrArg Host.Outcome.next ?_
    rw [State.acknowledge, attempt]
    dsimp only
    rw [if_pos ⟨hp, addressed⟩, if_pos rfl]
    exact State.updAttempt_alone ht _
  · have other : t.frame.function ≠ .callUnbound := by
      intro h
      rw [h] at expects
      cases expects
    refine congrArg Host.Outcome.next ?_
    rw [State.frameSent, attempt]
    dsimp only
    rw [if_pos hp, if_neg other, if_pos expects]
    exact State.updAttempt_alone ht _
  · refine congrArg Host.Outcome.next ?_
    rw [State.frameSent, attempt]
    dsimp only
    rw [if_pos hp, if_pos unbound]
    exact State.updAttempt_alone ht _
  · refine congrArg Host.Outcome.next ?_
    rw [State.contend, attempt]
    dsimp only
    rw [if_pos ((Attempt.sends_recessive_iff t k).2 ⟨(Attempt.sendingBit_iff t k).2 place, bit⟩)]
    exact State.updAttempt_eq ht rfl _
  · refine congrArg Host.Outcome.next ?_
    rw [State.slotsEnd, if_pos (by rw [State.inPhase_eq ht, hp]; rfl), if_neg h1, if_neg h0]
    exact State.updAttempt_alone ht _
  · have check := Attempt.takes_check takes
    obtain ⟨hp, hopen, -⟩ := takes
    refine congrArg Host.Outcome.next ?_
    rw [State.replyChar, attempt]
    dsimp only
    rw [if_pos ⟨hp, hopen, rfl⟩, if_pos rfl, check]
    exact State.updAttempt_alone ht _
  · refine congrArg Host.Outcome.next ?_
    rw [State.replyChar, attempt]
    exact if_neg fun h => by simp [none] at h
  · refine congrArg Host.Outcome.next ?_
    rw [State.replyChar, attempt]
    dsimp only
    rw [if_pos ⟨hp, hopen, low⟩, if_neg (by simp [bad])]
    exact State.updAttempt_alone ht _

/-! ### An attempt that is repeated -/

/-- The state in which the same frame is tried once more (R84). -/
def State.again (s : State) (g : Seg) (a : Activity) : State :=
  s.updEngine g fun e =>
    { e with
      activity := some { a with retries := a.retries + 1 }
      line := { e.line with
        attempt := some
          { frame := a.work.frame, phase := .idleWait, received := [], openRun := false, slotsRead := 0 } } }

theorem State.retryLimit_unforced (s : State) (g : Seg) {w : Work} (h : ∀ hd adr, w ≠ .retire hd adr true) :
    s.retryLimit g w = (s.engine g).settings.retries := by
  unfold State.retryLimit
  split
  · exact absurd rfl (h _ _)
  · rfl

/-- An outcome that may be repeated, on the measured line, with a retry left. -/
theorem State.attemptEnds_again_eq {s : State} {g : Seg} {a : Activity} {o : LineOutcome} (ha : (s.engine g).activity = some a)
    (left : a.retries < (s.engine g).settings.retries) (unforced : ∀ h adr, a.work ≠ .retire h adr true)
    (repeats : o.repeats = true) (f : Line → Line) : (s.updLine g f).attemptEnds g o = (s.updLine g f).again g a := by
  have ha' : ((s.updLine g f).engine g).activity = some a := by simp [State.updLine_eq, ha]
  have left' : a.retries < (s.updLine g f).retryLimit g a.work := by
    rw [State.retryLimit_unforced _ _ unforced]
    simpa [State.updLine_eq] using left
  rw [State.attemptEnds_again _ _ _ _ ha' repeats left']
  unfold State.retry State.again
  rw [State.updLine_eq _ g fun l => { l with attempt := none }, State.updEngine_updEngine]
  rfl

/-- Settles O49: the three outcomes that are repeated, at each event that brings one. -/
theorem unansweredAttemptIsRepeated : Obligations.UnansweredAttemptIsRepeated := by
  intro s g a t hat left unforced again
  obtain ⟨ha, ht⟩ := hat
  have attempt : s.attempt g = some t := ht
  have repeated (o : LineOutcome) (ho : o.repeats = true) : s.attemptEnds g o = s.again g a := by
    have h := State.attemptEnds_again_eq ha left unforced ho id
    rwa [State.updLine_id] at h
  refine ⟨fun hp addressed => ?_, fun n hp long => ?_, fun c m bad => ?_, fun run hp driving long => ?_⟩
  · refine congrArg Host.Outcome.next ?_
    rw [State.acknowledge, attempt]
    dsimp only
    rw [if_pos ⟨hp, addressed⟩, if_neg Bool.false_ne_true]
    exact repeated .noReply rfl
  · refine congrArg Host.Outcome.next ?_
    rw [State.replyTimeout, if_pos ⟨long, by rw [State.inPhase_eq ht, hp]; rfl⟩]
    exact repeated .noReply rfl
  · obtain ⟨f, rfl⟩ := State.misframes_line bad
    rw [exec_of_misframes ⟨ha, ht⟩ bad]
    exact congrArg Host.Outcome.next (State.attemptEnds_again_eq ha left unforced rfl f)
  · refine congrArg Host.Outcome.next ?_
    rw [State.releaseBreak, if_pos ⟨long, driving⟩]
    dsimp only
    rw [if_pos (by rw [State.inPhase_eq ht, hp]; rfl)]
    exact State.attemptEnds_again_eq ha left unforced rfl _

/-! ### The answers at the end of a pass -/

theorem State.repliedAt_slot {s : State} {p : PortId} {i : SlotIx} {r : Request} (st : Status) (gen : Byte) (body : List Byte)
    (hr : (s.slot p i).request? = some r) : (s.repliedAt p i st gen body).slot p i = .completed r (r.reply st gen body) := by
  have h := State.finish_slot s p i ⟨st, gen, body⟩ r hr
  rwa [State.finish_eq] at h

theorem State.repliedAt_slot_ne (s : State) {p q : PortId} {i j : SlotIx} (st : Status) (gen : Byte) (body : List Byte)
    (n : (q, j) ≠ (p, i)) : (s.repliedAt p i st gen body).slot q j = s.slot q j := by
  have h := State.finish_slot_ne s p q i j ⟨st, gen, body⟩ n
  rwa [State.finish_eq] at h

theorem State.repliedEach_slot_of_not_mem (s : State) (st : Status) (body : List Byte) {l : List (PortId × SlotIx)}
    {q : PortId} {j : SlotIx} (n : (q, j) ∉ l) : (s.repliedEach st body l).slot q j = s.slot q j := by
  induction l generalizing s with
  | nil => rfl
  | cons x l ih =>
    obtain ⟨p, i⟩ := x
    obtain ⟨n1, n2⟩ := not_or.1 fun h => n (List.mem_cons.2 h)
    rw [State.repliedEach, ih _ n2, State.repliedAt_slot_ne _ _ _ _ n1]

/-- Answering the requests of distinct slots answers each of them. -/
theorem State.repliedEach_slot {s : State} (st : Status) (body : List Byte) {l : List (PortId × SlotIx)} (distinct : l.Nodup)
    {q : PortId} {j : SlotIx} (m : (q, j) ∈ l) {r : Request} (hr : s.slot q j = .onLine r) :
    (s.repliedEach st body l).slot q j = .completed r (r.reply st 0 body) := by
  induction l generalizing s with
  | nil => cases m
  | cons x l ih =>
    obtain ⟨p, i⟩ := x
    obtain ⟨new, distinct⟩ := List.nodup_cons.1 distinct
    rw [State.repliedEach]
    by_cases same : (q, j) = (p, i)
    · cases same
      rw [State.repliedEach_slot_of_not_mem _ _ _ new, State.repliedAt_slot _ _ _ (by rw [hr]; rfl)]
    · refine ih distinct ((List.mem_cons.1 m).resolve_left same) ?_
      rw [State.repliedAt_slot_ne _ _ _ _ same, hr]

/-- The DISCOVERs attached to a pass are on the line, each in a slot of its own. -/
def State.attachedSound (s : State) (g : Seg) : Prop :=
  (s.engine g).pass.attached.Nodup ∧ ∀ y ∈ (s.engine g).pass.attached, ∃ r, s.slot y.1 y.2 = .onLine r

theorem mem_allSegments (g : Seg) : g ∈ allSegments := by fin_cases g <;> simp [allSegments]

theorem State.slotsAgree.attachedSound {s : State} (h : s.slotsAgree) (g : Seg) : s.attachedSound g := by
  obtain ⟨-, -, carried, -, onLine⟩ := h
  have each := (List.nodup_flatMap.1 carried).1 g (mem_allSegments g)
  exact ⟨(List.nodup_append.1 each).1, fun y hy => onLine g y (List.mem_append_left _ hy)⟩

/-- The end of an active pass answers its attached DISCOVERs with end reason and counts (R138). -/
theorem State.attachedAnswered_passOver {s : State} {g : Seg} (sound : s.attachedSound g) (active : (s.engine g).pass.active = true)
    (st : Status) (reason : Byte) : s.attachedAnswered (s.passOver g st reason) g st reason (s.engine g).pass := by
  obtain ⟨distinct, onLine⟩ := sound
  intro y hy
  obtain ⟨r, hr⟩ := onLine y hy
  have done := State.repliedEach_slot (s := s.updEngine g fun e =>
    { e with pass := { (s.engine g).pass with active := false, attached := [] } }) st
      [reason, byte (s.engine g).pass.contests, byte (s.engine g).pass.joined, byte (s.engine g).pass.rejoined,
        byte (s.engine g).pass.parked, byte (s.engine g).pass.lost] distinct hy (by rw [State.updEngine_slot, hr])
  simp only [State.passOver, active, if_true]
  rw [done]
  exact ⟨_, rfl, rfl, rfl, rfl⟩

/-- Only the list of attached DISCOVERs, and the slots of the state after, matter to their answers. -/
theorem State.attachedAnswered.congr {s s' u u' : State} {g : Seg} {st : Status} {reason : Byte} {c : PassRecord}
    (h : s.attachedAnswered u g st reason c) (attached : (s'.engine g).pass.attached = (s.engine g).pass.attached)
    (slots : ∀ p i, u'.slot p i = u.slot p i) : s'.attachedAnswered u' g st reason c := by
  intro y hy
  rw [slots]
  exact h y (attached ▸ hy)

/-! ### Contests -/

/-- A contest that is lost, its attempt over, on the line as measured. -/
theorem State.contestLost_cleared (s : State) (g : Seg) (f : Line → Line) :
    (s.updLine g fun l => { f l with attempt := none }).contestLost g =
      (s.updEngine g fun e =>
        { e with
          line := f e.line
          pass := { e.pass with contests := e.pass.contests + 1, lost := e.pass.lost + 1 } }).contestEnded g := by
  rw [State.contestLost, State.endContest_eq, ← State.contestEnded_updLine (s.updEngine g _)]
  simp only [State.updLine_eq, State.updPass_eq, State.updEngine_updEngine]
  rfl

/-- 48 recessive slots on a segment that stays on end the pass NONE_LEFT (R125, R126). -/
theorem State.noContender_eq {s : State} {g : Seg} (on : (s.engine g).staysOn = true) :
    (s.clearAttempt g).noContender g =
      ((s.clearAttempt g).updPass g PassRecord.countContest |>.passOver g .ok 1).ended g := by
  have on' : ((s.clearAttempt g).engine g).staysOn = true := by
    rw [State.clearAttempt, (State.updLine_keeps s g _).2.2.2.2.1, on]
  unfold State.noContender
  dsimp only
  rw [on', Bool.true_or, if_pos rfl, State.endActivity_eq, State.endPass_eq]
  rfl

@[simp] theorem State.passOver_entries (s : State) (g : Seg) (st : Status) (reason : Byte) :
    (s.passOver g st reason).entries = s.entries := by
  unfold State.passOver
  dsimp only
  split
  · rw [← State.answerAll_eq, State.answerAll_entries, State.updEngine_entries]
  · rfl

@[simp] theorem State.passOver_maps (s : State) (g : Seg) (st : Status) (reason : Byte) :
    (s.passOver g st reason).maps = s.maps := by
  unfold State.passOver
  dsimp only
  split
  · rw [← State.answerAll_eq, State.answerAll_maps, State.updEngine_maps]
  · rfl

theorem State.passOver_engine (s : State) (g k : Seg) (st : Status) (reason : Byte) :
    (s.passOver g st reason).engine k =
      if k = g ∧ (s.engine g).pass.active = true then
        { s.engine g with pass := { (s.engine g).pass with active := false, attached := [] } }
      else s.engine k := by
  unfold State.passOver
  by_cases ha : (s.engine g).pass.active = true
  · simp only [ha, if_true]
    rw [← State.answerAll_eq, State.engine, State.answerAll_engines, ← State.engine, State.updEngine_engine]
    simp
  · simp [ha]

/-- The end of an active pass leaves its engine with the record inactive. -/
theorem State.passOver_engine_same {s : State} {g : Seg} (active : (s.engine g).pass.active = true) (st : Status) (reason : Byte) :
    (s.passOver g st reason).engine g =
      { s.engine g with pass := { (s.engine g).pass with active := false, attached := [] } } := by
  rw [State.passOver_engine, if_pos ⟨rfl, active⟩]

/-- Settles O56: every way to lose a contest counts it lost; no contender ends the pass. -/
theorem contestOutcomesFollowTheSlots : Obligations.ContestOutcomesFollowTheSlots := by
  intro s g a t hat lost
  obtain ⟨ha, ht⟩ := hat
  have attempt : s.attempt g = some t := ht
  have cleared : (s.clearAttempt g).contestLost g = lost id := State.contestLost_cleared s g id
  refine ⟨fun hp => ?_, fun hp on active => ?_, fun hp => ⟨fun n long => ?_, fun run long => ?_, fun ch low bad => ?_⟩,
    fun hw hp driving last run long => ?_⟩
  · refine congrArg Host.Outcome.next ?_
    rw [State.slotsEnd, if_pos (by rw [State.inPhase_eq ht, hp]; rfl), if_neg (by decide), if_pos rfl, cleared]
  · intro counts
    let v := (s.clearAttempt g).updPass g PassRecord.countContest
    have pass : (v.engine g).pass = counts := by
      simp [v, State.clearAttempt, State.updPass_eq, State.updLine_eq, PassRecord.countContest, counts]
    have vActive : (v.engine g).pass.active = true := by rw [pass]; exact active
    have over' : ((v.passOver g .ok 1).engine g) = { v.engine g with pass := { counts with active := false, attached := [] } } := by
      rw [State.passOver_engine_same vActive, pass]
    have stays : ((v.passOver g .ok 1).engine g).staysOn = true := by
      rw [over']
      simpa [v, State.clearAttempt, State.updPass_eq, State.updLine_eq, Engine.staysOn] using on
    refine ⟨(v.passOver g .ok 1).ended g, ?_, ?_, ?_, ?_⟩
    · refine congrArg Host.Outcome.next ?_
      rw [State.slotsEnd, if_pos (by rw [State.inPhase_eq ht, hp]; rfl), if_pos rfl, State.noContender_eq on]
    · rw [State.ended_on _ _ stays]
      exact (State.passOver_entries ..).trans rfl
    · rw [State.ended_on _ _ stays]
      exact (State.passOver_maps ..).trans rfl
    · rw [State.ended_on _ _ stays, State.updEngine_engine_same, over']
      refine ⟨rfl, rfl, rfl, fun agree => ?_⟩
      obtain ⟨distinct, onLine⟩ := agree.attachedSound g
      have attached : (v.engine g).pass.attached = (s.engine g).pass.attached := by rw [pass]
      have sound : v.attachedSound g := ⟨attached ▸ distinct, fun y hy => by
        have := onLine y (attached ▸ hy)
        simpa [v, State.clearAttempt, State.updPass_eq, State.updLine_eq] using this⟩
      have done := State.attachedAnswered_passOver sound vActive .ok 1
      rw [pass] at done
      exact done.congr attached.symm fun p i => State.updEngine_slot ..
  · refine congrArg Host.Outcome.next ?_
    rw [State.classTimeout, if_pos ⟨long, by rw [State.inPhase_eq ht, hp]; rfl⟩, cleared]
  · refine congrArg Host.Outcome.next ?_
    rw [State.breakSeen, if_pos (show Config.breakTime ≤ run from long), if_neg (by rw [State.inPhase_eq ht, hp]; simp),
      if_pos (by rw [State.inPhase_eq ht, hp]; rfl)]
    exact State.contestLost_cleared s g (·.sawDominant run)
  · refine congrArg Host.Outcome.next ?_
    rw [State.classChar, attempt, ha]
    dsimp only
    rw [if_pos ⟨hp, low⟩, if_neg (by rcases bad with h | h <;> simp [h]), cleared]
  · have ends := exec_of_concludes (o := .contention) ⟨ha, ht⟩ ⟨.inl last, hp, driving, run, long, rfl, rfl⟩
    rw [ends]
    refine congrArg Host.Outcome.next ?_
    rw [State.finalOutcome, hw]
    dsimp only
    have twice : ((s.updLine g (·.releasing run)).updLine g fun l => { l with attempt := none }) =
        s.updLine g fun l => { l.releasing run with attempt := none } := by
      rw [State.updLine_eq, State.updLine_eq, State.updLine_eq, State.updEngine_updEngine]
    rw [twice]
    exact State.contestLost_cleared s g (·.releasing run)

end Sys2Proof.Machine
end

section
/-! PROOFS. The end of a transaction with its attempt over, the identity in a reply, and the outcomes of a poll (R109 to R116). -/

namespace Sys2Proof.Machine

/-! ### What a change of the line leaves alone -/

@[simp] theorem State.updLine_entry (s : State) (g : Seg) (f : Line → Line) (h : Handle) : (s.updLine g f).entry h = s.entry h :=
  (State.updLine_keeps s g f).1 h

@[simp] theorem State.updLine_mapSlot (s : State) (g : Seg) (f : Line → Line) (k : Seg) (b : Byte) :
    (s.updLine g f).mapSlot k b = s.mapSlot k b := (State.updLine_keeps s g f).2.2.1 k b

@[simp] theorem State.updLine_threshold (s : State) (g : Seg) (f : Line → Line) (k : Seg) :
    (s.updLine g f).threshold k = s.threshold k := (State.updLine_keeps s g f).2.2.2.1 k

@[simp] theorem State.updLine_pass (s : State) (g : Seg) (f : Line → Line) :
    ((s.updLine g f).engine g).pass = (s.engine g).pass := (State.updLine_keeps s g f).2.2.2.2.2

@[simp] theorem State.updLine_staysOn (s : State) (g : Seg) (f : Line → Line) :
    ((s.updLine g f).engine g).staysOn = (s.engine g).staysOn := (State.updLine_keeps s g f).2.2.2.2.1

@[simp] theorem State.updLine_settings (s : State) (g : Seg) (f : Line → Line) (k : Seg) :
    ((s.updLine g f).engine k).settings = (s.engine k).settings := by
  rw [State.updLine_eq, State.updEngine_engine]
  split <;> simp_all

@[simp] theorem State.updLine_inPool (s : State) (g : Seg) (f : Line → Line) (k : Seg) (b : Byte) :
    (s.updLine g f).inPool k b = s.inPool k b := State.updEngine_inPool ..

/-! ### The shared updates and a change of the line -/

section
variable (s : State) (g : Seg) (f : Line → Line) (h : Handle)

theorem State.updLine_moved (e : Entry) : (s.updLine g f).moved h e = (s.moved h e).updLine g f := rfl

theorem State.updLine_noticed (n : Notice) : (s.updLine g f).noticed n = (s.noticed n).updLine g f := rfl

theorem State.updLine_setEntry (e : Entry) : (s.updLine g f).setEntry h e = (s.setEntry h e).updLine g f := rfl

theorem State.updLine_setMap (k : Seg) (b : Byte) (m : MapSlot) :
    (s.updLine g f).setMap k b m = (s.setMap k b m).updLine g f := State.setMap_updEngine ..

theorem State.updLine_told (o : Option Owner) (st : Status) (gen : Byte) (body : List Byte) :
    (s.updLine g f).told o st gen body = (s.told o st gen body).updLine g f := State.told_updEngine ..

theorem State.updLine_updPass (c : PassRecord → PassRecord) : (s.updLine g f).updPass g c = (s.updPass g c).updLine g f := by
  simp only [State.updLine_eq, State.updPass_eq, State.updEngine_updEngine]

theorem State.updLine_resolution (k : List Handle → List Handle) :
    (s.updLine g f).updEngine g (fun y => { y with resolution := k y.resolution }) =
      (s.updEngine g fun y => { y with resolution := k y.resolution }).updLine g f := by
  simp only [State.updLine_eq, State.updEngine_updEngine]

theorem State.updLine_disputed : (s.updLine g f).disputed g h = (s.disputed g h).updLine g f := by
  unfold State.disputed
  rw [State.updLine_entry, State.updLine_moved,
    State.updLine_resolution (k := fun l => if h ∈ l then l else l ++ [h]), State.updLine_noticed]

theorem State.updLine_retired : (s.updLine g f).retired h = (s.retired h).updLine g f := by
  unfold State.retired
  dsimp only
  rw [State.updLine_entry, State.updLine_setMap, State.updLine_moved, State.updLine_noticed]

theorem State.updLine_backTo (prior : Prior) (n : Nat) : (s.updLine g f).backTo h prior n = (s.backTo h prior n).updLine g f := by
  unfold State.backTo
  cases prior <;> simp only [State.updLine_entry, State.updLine_threshold, State.updLine_moved, State.updLine_noticed, apply_ite (State.updLine · g f)]

end

/-! ### The end of a transaction, its attempt over -/

/-- An ended transaction applies its final outcome to the measured state with the attempt over. -/
theorem exec_of_final {s m : State} {g : Seg} {a : Activity} {t : Attempt} {c : Instr} {o : LineOutcome}
    (hat : s.attempting g a t) (hc : s.concludes g a t c o m) : exec c s = .next ((m.clearAttempt g).finalOutcome g a o) :=
  exec_of_concludes hat hc

@[simp] theorem State.ended_clearAttempt (s : State) (g : Seg) : (s.clearAttempt g).ended g = s.ended g := State.ended_updLine s g

@[simp] theorem State.contestEnded_clearAttempt (s : State) (g : Seg) : (s.clearAttempt g).contestEnded g = s.contestEnded g :=
  State.contestEnded_updLine s g

@[simp] theorem State.stepTo_clearAttempt (s : State) (g : Seg) (a : Activity) (w : Work) :
    (s.clearAttempt g).stepTo g a w = s.stepped g a w := State.stepTo_updLine s g a w

/-- The measured state of an ended transaction has the entries, the maps and the thresholds of the state before. -/
theorem State.concludes_same {s m : State} {g : Seg} {a : Activity} {t : Attempt} {c : Instr} {o : LineOutcome}
    (hc : s.concludes g a t c o m) :
    (∀ h, m.entry h = s.entry h) ∧ (∀ k b, m.mapSlot k b = s.mapSlot k b) ∧ (∀ k, m.threshold k = s.threshold k) ∧
      ∀ k, (m.engine k).settings = (s.engine k).settings := by
  obtain ⟨f, rfl⟩ := State.concludes_line hc
  exact ⟨fun h => State.updLine_entry .., fun k b => State.updLine_mapSlot .., fun k => State.updLine_threshold ..,
    fun k => State.updLine_settings ..⟩

/-- A frame that is replied to does not end SENT (R70). -/
theorem State.not_concludes_sent {s m : State} {g : Seg} {a : Activity} {t : Attempt} {c : Instr}
    (replies : t.frame.function.expectsReply = true) : ¬ s.concludes g a t c .sent m := by
  rintro ⟨-, -, replyless, -⟩
  rw [replies] at replyless
  cases replyless

/-- A frame that may not be refused does not end refused (R59). -/
theorem State.not_concludes_refuse {s m : State} {g : Seg} {a : Activity} {t : Attempt} {c : Instr} {code : Byte}
    (refuseless : t.frame.function.refuseAllowed = false) : ¬ s.concludes g a t c (.refuse code) m := by
  rintro ⟨allowed, -⟩
  rw [refuseless] at allowed
  cases allowed

/-! ### The identity in a reply -/

theorem identBytes_identOf (b0 b1 b2 b3 b4 b5 : Byte) : identBytes (identOf b0 b1 b2 b3 b4 b5) = [b0, b1, b2, b3, b4, b5] := by
  have part (hi : Nat) (b : Byte) (h : ∀ k < 8, (identOf b0 b1 b2 b3 b4 b5).getLsbD (hi + k) = b.getLsbD k) :
      (identOf b0 b1 b2 b3 b4 b5).extractLsb' hi 8 = b := BitVec.eq_of_getLsbD_eq fun k hk => by
    rw [BitVec.getLsbD_extractLsb', decide_eq_true hk, Bool.true_and, h k hk]
  simp only [identBytes, List.cons.injEq, and_true]
  refine ⟨part _ _ ?_, part _ _ ?_, part _ _ ?_, part _ _ ?_, part _ _ ?_, part _ _ ?_⟩ <;> intro k hk <;>
    simp only [identOf, BitVec.getLsbD_append] <;> (repeat' split) <;> (try omega) <;> congr 1 <;> omega

/-- A seven-byte reply carries an identity exactly when its bytes and a class are the reply. -/
theorem replyIdentity_eq_iff {d : List Byte} (len : d.length = 7) (x : Ident) :
    replyIdentity d = x ↔ ∃ cls, d = identBytes x ++ [cls] := by
  match d, len with
  | [b0, b1, b2, b3, b4, b5, b6], _ =>
    simp only [replyIdentity]
    constructor
    · rintro rfl
      exact ⟨b6, by rw [identBytes_identOf]; rfl⟩
    · rintro ⟨cls, hd⟩
      simp only [identBytes, List.cons_append, List.nil_append, List.cons.injEq] at hd
      obtain ⟨rfl, rfl, rfl, rfl, rfl, rfl, -⟩ := hd
      exact identOf_identBytes x

theorem State.concludes_length {s m : State} {g : Seg} {a : Activity} {t : Attempt} {c : Instr} {d : List Byte}
    (hc : s.concludes g a t c (.accept d) m) (len : t.frame.replyLength = 7) : d.length = 7 := by
  obtain ⟨-, short, long, -⟩ := hc
  rw [len] at long
  have := congrArg BitVec.toNat long
  simp [byte] at this
  omega

/-- The reply to a frame that asks for an identity is accepted with identity `x` exactly when it carries it. -/
theorem LineOutcome.accepts_iff {s m : State} {g : Seg} {a : Activity} {t : Attempt} {c : Instr} {o : LineOutcome}
    (hc : s.concludes g a t c o m) (len : t.frame.replyLength = 7) (x : Ident) :
    o.accepts x = true ↔ ∃ cls : Byte, o = .accept (identBytes x ++ [cls]) := by
  cases o <;> simp only [LineOutcome.accepts, Bool.false_eq_true, reduceCtorEq, exists_false, beq_iff_eq, LineOutcome.accept.injEq]
  exact replyIdentity_eq_iff (State.concludes_length hc len) x

/-! ### The shared entry changes of an outcome -/

theorem State.isStill_iff (s : State) (h : Handle) (x : Ident) (g : Seg) :
    s.isStill h x g = true ↔ (s.entry h).state ≠ .free ∧ (s.entry h).identity = x ∧ (s.entry h).segment = g := by
  simp [State.isStill, Entry.isFree, and_assoc]

/-- A PRESENT entry that is confirmed has its counts cleared (R110). -/
theorem State.confirm_present {s : State} {h : Handle} (present : (s.entry h).state = .present) :
    s.confirm h = s.setEntry h { s.entry h with silence := 0, age := 0 } := by
  have same : { s.entry h with state := .present, silence := 0, age := 0 } = { s.entry h with silence := 0, age := 0 } := by
    rw [← present]
  exact (congrArg (s.change h) same).trans (State.change_same s h _ (by simp [bearingDiffers]) rfl)

theorem State.countSilence_below {s : State} {h : Handle} (below : min ((s.entry h).silence + 1) 7 < s.threshold (s.entry h).segment) :
    s.countSilence h = s.setEntry h { s.entry h with silence := min ((s.entry h).silence + 1) 7 } :=
  if_neg (Nat.not_le.2 below)

theorem State.countSilence_reached {s : State} {h : Handle} (held : (s.entry h).state ≠ .absent)
    (reached : s.threshold (s.entry h).segment ≤ min ((s.entry h).silence + 1) 7) :
    s.countSilence h =
      (s.moved h { s.entry h with state := .absent, silence := min ((s.entry h).silence + 1) 7, age := 0 }).noticed .absent :=
  (if_pos reached).trans (State.makeAbsent_eq s h _ held)

/-- A directory event takes no notice of counts written before it. -/
theorem State.moved_setEntry {s : State} {h : Handle} {e : Entry} (f : Entry) (gen : e.generation = (s.entry h).generation)
    (wa : e.watchA = (s.entry h).watchA) (wb : e.watchB = (s.entry h).watchB) :
    (s.setEntry h e).moved h f = s.moved h f := by
  unfold State.moved
  simp only [State.setEntry_entry_same, gen, wa, wb, State.setEntry_portA, State.setEntry_portB, State.setEntry_runState]
  simp [State.setEntry]

theorem State.setMap_setEntry (s : State) (h : Handle) (e : Entry) (g : Seg) (b : Byte) (m : MapSlot) :
    (s.setEntry h e).setMap g b m = (s.setMap g b m).setEntry h e := by unfold State.setMap; split <;> rfl

theorem State.retired_setEntry (s : State) (h : Handle) (n k : Nat) :
    (s.setEntry h { s.entry h with silence := n, age := k }).retired h = s.retired h := by
  unfold State.retired
  dsimp only
  rw [State.setEntry_entry_same, State.setMap_setEntry]
  exact congrArg (State.noticed · .retired) (State.moved_setEntry _ (by simp) (by simp) (by simp))

/-- An unanswered poll of an ABSENT entry whose age reaches the grace retires it (R115, R116). -/
theorem State.ageAbsent_retires {s : State} {h : Handle} (held : (s.entry h).state ≠ .free)
    (grace : 1 ≤ (s.engine (s.entry h).segment).settings.grace ∧
      (s.engine (s.entry h).segment).settings.grace ≤ min ((s.entry h).age + 1) 15 ∧ (s.entry h).claim = none) :
    s.ageAbsent h = s.retired h := by
  refine (if_pos grace).trans ?_
  rw [State.freeRetired_eq _ _ (by rwa [State.setEntry_entry_same]), State.retired_setEntry]

/-- Short of that it counts (R111). -/
theorem State.ageAbsent_ages {s : State} {h : Handle}
    (young : ¬ (1 ≤ (s.engine (s.entry h).segment).settings.grace ∧
      (s.engine (s.entry h).segment).settings.grace ≤ min ((s.entry h).age + 1) 15 ∧ (s.entry h).claim = none)) :
    s.ageAbsent h =
      s.setEntry h { s.entry h with silence := min ((s.entry h).silence + 1) 7, age := min ((s.entry h).age + 1) 15 } :=
  if_neg young

/-! ### Polls -/

section
variable {s : State} {h : Handle} {x : Ident} {sg : Seg} (g : Seg)

theorem State.pollOutcome_gone (gone : ¬ ((s.entry h).state ≠ .free ∧ (s.entry h).identity = x ∧ (s.entry h).segment = sg))
    (o : LineOutcome) : s.pollOutcome g h x sg o = s := if_neg (mt (State.isStill_iff ..).1 gone)

variable (still : (s.entry h).state ≠ .free ∧ (s.entry h).identity = x ∧ (s.entry h).segment = sg)
include still

theorem State.pollOutcome_inHand (hand : (s.entry h).inHand) (o : LineOutcome) :
    s.pollOutcome g h x sg o = if o.accepts (s.entry h).identity then s.setSilence h 0 else s := by
  unfold State.pollOutcome
  rw [if_pos ((State.isStill_iff ..).2 still)]
  rcases hand with ⟨pr, t, hs⟩ | ⟨pr, f, hs⟩ <;> rw [hs]

/-- What a poll's outcome does to a SEEDED, PRESENT or ABSENT entry (R110, R111). -/
theorem State.pollOutcome_polled (polled : (s.entry h).state = .seeded ∨ (s.entry h).state = .present ∨ (s.entry h).state = .absent)
    (o : LineOutcome) :
    s.pollOutcome g h x sg o =
      match o with
      | .accept d => if replyIdentity d = x then s.confirm h else s.makeConflict g h
      | .collision => s.makeConflict g h
      | .noReply | .framing => if (s.entry h).state = .absent then s.ageAbsent h else s.countSilence h
      | .refuse _ | .contention | .sent | .stuck => s := by
  unfold State.pollOutcome
  rw [if_pos ((State.isStill_iff ..).2 still)]
  obtain ⟨-, rfl, -⟩ := still
  rcases polled with hs | hs | hs <;> rw [hs] <;> cases o <;> rfl

end

/-- Settles O50: each outcome by the entry's state. -/
theorem pollOutcomesDecideTheEntry : Obligations.PollOutcomesDecideTheEntry := by
  intro s m g sg a t c o h x adr hat hf hw hc e same answers quieter older grace ends
  have len : t.frame.replyLength = 7 := by rw [hf, hw]; rfl
  have accepts := LineOutcome.accepts_iff hc len x
  obtain ⟨entry, -, threshold, settings⟩ := State.concludes_same hc
  let n := m.clearAttempt g
  have nentry : n.entry h = e := (State.updLine_entry ..).trans (entry h)
  have nthreshold (k : Seg) : n.threshold k = s.threshold k := (State.updLine_threshold ..).trans (threshold k)
  have nsettings (k : Seg) : (n.engine k).settings = (s.engine k).settings := (State.updLine_settings ..).trans (settings k)
  have ends_of {u : State} (hu : n.pollOutcome g h x sg o = u.clearAttempt g) : ends u := by
    change exec c s = _
    rw [exec_of_final hat hc, State.finalOutcome, hw]
    dsimp only
    rw [hu, State.endActivity_eq, State.ended_clearAttempt]
  refine ⟨fun gone => ends_of ?_, fun still hand => ⟨fun yes => ends_of ?_, fun no => ends_of ?_⟩, fun still polled => ?_⟩
  · exact State.pollOutcome_gone g (by rwa [nentry]) o
  · rw [State.pollOutcome_inHand g (by rwa [nentry]) (by rwa [nentry]),
      if_pos (by rw [nentry, still.2.1]; exact accepts.2 yes), State.setSilence, nentry]
    rfl
  · rw [State.pollOutcome_inHand g (by rwa [nentry]) (by rwa [nentry]),
      if_neg (by rw [nentry, still.2.1]; exact mt accepts.1 no)]
  have polls := State.pollOutcome_polled (s := n) g (by rwa [nentry]) (by rwa [nentry]) o
  have unlike {st : EntryState} (hst : e.state = st) (k : EntryState) (ne : st ≠ k) : (n.entry h).state ≠ k := by
    rw [nentry, hst]; exact ne
  have disputes : n.makeConflict g h = (m.disputed g h).clearAttempt g := by
    rw [State.makeConflict_eq n g h (by rcases polled with p | p | p <;> exact unlike p _ (by simp))]
    exact State.updLine_disputed m g _ h
  cases o with
  | accept d =>
    have right : (replyIdentity d = x) ↔ answers := by
      simpa only [LineOutcome.accepts, beq_iff_eq] using accepts
    refine ⟨fun yes present => ends_of ?_, fun yes other => ends_of ?_, fun no => ends_of ?_⟩
    · rw [polls]
      dsimp only
      rw [if_pos (right.2 yes), State.confirm_present (by rwa [nentry]), nentry]
      rfl
    · rw [polls]
      dsimp only
      rw [if_pos (right.2 yes), State.confirm_eq n h (by rwa [nentry]), nentry]
      rfl
    · rw [polls]
      dsimp only
      rw [if_neg (mt right.1 no), disputes]
  | collision => exact ends_of (polls.trans disputes)
  | noReply | framing =>
    refine ⟨fun p below => ends_of ?_, fun p reached => ends_of ?_, fun p g1 g2 unclaimed => ends_of ?_, fun p young => ends_of ?_⟩
    · rw [polls]
      dsimp only
      rw [nentry, if_neg p, State.countSilence_below (by rwa [nentry, nthreshold]), nentry]
      rfl
    · rw [polls]
      dsimp only
      rw [nentry, if_neg p, State.countSilence_reached (by rwa [nentry]) (by rwa [nentry, nthreshold]), nentry]
      rfl
    · rw [polls]
      dsimp only
      rw [nentry, if_pos p, State.ageAbsent_retires (by rw [nentry]; exact still.1)
        (by rw [nentry, nsettings]; exact ⟨g1, g2, unclaimed⟩)]
      exact State.updLine_retired m g _ h
    · rw [polls]
      dsimp only
      rw [nentry, if_pos p, State.ageAbsent_ages (by rwa [nentry, nsettings]), nentry]
      rfl
  | contention => exact ends_of polls
  | refuse code => exact State.not_concludes_refuse (by rw [hf, hw]; rfl) hc
  | sent => exact State.not_concludes_sent (by rw [hf, hw]; rfl) hc
  | stuck => exact hc

end Sys2Proof.Machine
end

section
/-! PROOFS. The outcomes of host transactions and of a resolution's second step (R83, R86 to R88, R143, R144). -/

namespace Sys2Proof.Machine

/-! ### The entry changes and a change of the line -/

section
variable (s : State) (g : Seg) (f : Line → Line) (h : Handle)

theorem State.updLine_change (e : Entry) : (s.updLine g f).change h e = (s.change h e).updLine g f := by
  unfold State.change
  rw [State.updLine_entry]
  split
  · rw [State.handOver_eq, State.handOver_eq]
    rfl
  · rfl

theorem State.updLine_raise (n : Notice) : (s.updLine g f).raise n = (s.raise n).updLine g f := by
  rw [State.raise_eq, State.raise_eq]
  rfl

theorem State.updLine_makeAbsent (n : Nat) : (s.updLine g f).makeAbsent h n = (s.makeAbsent h n).updLine g f := by
  rw [State.makeAbsent, State.updLine_entry, State.updLine_change, State.updLine_raise]
  rfl

theorem State.updLine_confirm : (s.updLine g f).confirm h = (s.confirm h).updLine g f := by
  rw [State.confirm, State.updLine_entry, State.updLine_change]
  rfl

theorem State.updLine_setSilence (n : Nat) : (s.updLine g f).setSilence h n = (s.setSilence h n).updLine g f := by
  rw [State.setSilence, State.updLine_entry]
  rfl

theorem State.updLine_countSilence : (s.updLine g f).countSilence h = (s.countSilence h).updLine g f := by
  unfold State.countSilence
  dsimp only
  rw [State.updLine_entry, State.updLine_threshold, State.updLine_makeAbsent, State.updLine_setSilence]
  exact (apply_ite (State.updLine · g f) ..).symm

theorem State.updLine_appendResolution : (s.updLine g f).appendResolution g h = (s.appendResolution g h).updLine g f := by
  unfold State.appendResolution
  simp only [State.updLine_eq, State.updEngine_updEngine]
  refine congrArg (s.updEngine g) (funext fun e => ?_)
  split <;> rfl

theorem State.updLine_makeConflict : (s.updLine g f).makeConflict g h = (s.makeConflict g h).updLine g f := by
  rw [State.makeConflict, State.updLine_entry, State.updLine_change, State.updLine_appendResolution, State.updLine_raise]
  rfl

theorem State.updLine_isStill (x : Ident) (k : Seg) : (s.updLine g f).isStill h x k = s.isStill h x k := by
  simp only [State.isStill, State.updLine_entry]

/-- A host transaction's effect on its entry does not depend on the line. -/
theorem State.updLine_hostOutcome (x : Ident) (sg : Seg) (o : LineOutcome) :
    (s.updLine g f).hostOutcome g h x sg o = (s.hostOutcome g h x sg o).updLine g f := by
  unfold State.hostOutcome
  rw [State.updLine_isStill, State.updLine_entry]
  split
  · cases o with
    | accept | refuse => exact State.updLine_setSilence ..
    | noReply | framing =>
      cases (s.entry h).state with
      | seeded | present => exact State.updLine_countSilence ..
      | absent | conflict => exact State.updLine_setSilence ..
      | free | moving | retiring => rfl
    | collision =>
      cases (s.entry h).state with
      | seeded | present | absent => exact State.updLine_makeConflict ..
      | conflict => exact State.updLine_appendResolution ..
      | free | moving | retiring => rfl
    | contention | sent | stuck => rfl
  · rfl

end

/-! ### Host transactions -/

section
variable {s : State} {h : Handle} {x : Ident} {sg : Seg} (g : Seg)

theorem State.hostOutcome_gone (gone : ¬ ((s.entry h).state ≠ .free ∧ (s.entry h).identity = x ∧ (s.entry h).segment = sg))
    (o : LineOutcome) : s.hostOutcome g h x sg o = s := if_neg (mt (State.isStill_iff ..).1 gone)

/-- What an outcome does to an entry that is still the one recorded (R86). -/
theorem State.hostOutcome_still (still : (s.entry h).state ≠ .free ∧ (s.entry h).identity = x ∧ (s.entry h).segment = sg)
    (o : LineOutcome) :
    s.hostOutcome g h x sg o =
      match o with
      | .accept _ | .refuse _ => s.setSilence h 0
      | .noReply | .framing =>
        match (s.entry h).state with
        | .seeded | .present => s.countSilence h
        | .absent | .conflict => s.setSilence h (moreSilence (s.entry h).silence)
        | .free | .moving _ _ | .retiring _ _ => s
      | .collision =>
        match (s.entry h).state with
        | .seeded | .present | .absent => s.makeConflict g h
        | .conflict => s.appendResolution g h
        | .free | .moving _ _ | .retiring _ _ => s
      | .contention | .sent | .stuck => s :=
  if_pos ((State.isStill_iff ..).2 still)

/-- An unanswered outcome leaves a MOVING or RETIRING entry (R86). -/
theorem State.hostOutcome_held {o : LineOutcome} (held : (s.entry h).inHand)
    (unanswered : o = .noReply ∨ o = .framing ∨ o = .collision) : s.hostOutcome g h x sg o = s := by
  unfold State.hostOutcome
  rcases held with ⟨pr, t, hs⟩ | ⟨pr, r, hs⟩ <;> rw [hs] <;> rcases unanswered with rfl | rfl | rfl <;> simp

theorem State.hostOutcome_contention : s.hostOutcome g h x sg .contention = s := by
  unfold State.hostOutcome
  split <;> rfl

end

theorem State.appendResolution_eq_ite (s : State) (g : Seg) (h : Handle) :
    s.appendResolution g h =
      s.updEngine g fun y => { y with resolution := if h ∈ y.resolution then y.resolution else y.resolution ++ [h] } := by
  unfold State.appendResolution
  refine congrArg (s.updEngine g) (funext fun e => ?_)
  split <;> rfl

/-- Settles O51: the effect of each outcome, and its answer. -/
theorem hostTransactionOutcomesAnswerAndCount : Obligations.HostTransactionOutcomesAnswerAndCount := by
  intro s m g sg a t c o h x adr reads hat hf hw hc e same quieter held
  obtain ⟨entry, -, threshold, -⟩ := State.concludes_same hc
  let u := m.hostOutcome g h x sg o
  let body : List Byte := (u.transferAnswer h o reads).body
  have done : exec c s = .next ((u.told a.owner o.status (u.entry h).generation body).ended g) := by
    have final : (m.clearAttempt g).finalOutcome g a o = (m.clearAttempt g).transferOutcome g a h x sg reads o := by
      rcases hw with ⟨rfl, item, len, hw⟩ | ⟨rfl, item, data, hw⟩ <;> rw [State.finalOutcome, hw]
    rw [exec_of_final hat hc, final, State.transferOutcome, State.clearAttempt, State.updLine_hostOutcome]
    rw [State.finishOwner_eq, State.endActivity_eq]
    simp only [State.transferAnswer, State.updLine_entry, State.updLine_told]
    exact congrArg Host.Outcome.next (State.ended_updLine ..)
  have unsent : ¬ s.concludes g a t c .sent m := State.not_concludes_sent (by
    rcases hw with ⟨-, item, len, hw⟩ | ⟨-, item, data, hw⟩ <;> rw [hf, hw] <;> rfl)
  refine ⟨u, o.status, body, done, fun gone => State.hostOutcome_gone g (by rwa [entry]) o, ?_, ?_⟩
  · intro sm hand
    have outcome := State.hostOutcome_still (s := m) g (by rwa [entry]) o
    cases o with
    | accept | refuse => exact .inr (outcome.trans (by rw [State.setSilence, entry]))
    | noReply | framing | collision => exact .inl (State.hostOutcome_held g (by rwa [entry]) (by simp))
    | contention => exact .inl outcome
    | sent => exact (unsent hc).elim
    | stuck => exact hc.elim
  have still (sm : same) := State.hostOutcome_still (s := m) g (by rwa [entry]) o
  have silent (no : o = .noReply ∨ o = .framing) :
      (same → e.state = .seeded ∨ e.state = .present →
        (quieter < s.threshold e.segment → u = m.setEntry h { e with silence := quieter }) ∧
        (s.threshold e.segment ≤ quieter →
          u = (m.moved h { e with state := .absent, silence := quieter, age := 0 }).noticed .absent)) ∧
      (same → e.state = .absent ∨ e.state = .conflict → u = m.setEntry h { e with silence := quieter }) ∧
      (held → u = m) := by
    refine ⟨fun sm polled => ?_, fun sm other => ?_, fun hand => State.hostOutcome_held g (by rwa [entry]) (by tauto)⟩
    · have counted : u = m.countSilence h := by
        rw [show u = _ from still sm, entry]
        rcases no with rfl | rfl <;> rcases polled with st | st <;> rw [st]
      refine ⟨fun below => ?_, fun reached => ?_⟩
      · rw [counted, State.countSilence_below (by rwa [entry, threshold]), entry]
      · rw [counted, State.countSilence_reached _ (by rwa [entry, threshold]), entry]
        rw [entry]
        rcases polled with st | st <;> rw [st] <;> simp
    · have counted : u = m.setSilence h (moreSilence (m.entry h).silence) := by
        rw [show u = _ from still sm, entry]
        rcases no with rfl | rfl <;> rcases other with st | st <;> rw [st]
      rw [counted, State.setSilence, entry]
      rfl
  cases o with
  | accept d => exact ⟨rfl, rfl, fun sm => (still sm).trans (by rw [State.setSilence, entry])⟩
  | refuse code => exact ⟨rfl, rfl, fun sm => (still sm).trans (by rw [State.setSilence, entry])⟩
  | noReply => exact ⟨rfl, rfl, silent (.inl rfl)⟩
  | framing => exact ⟨rfl, rfl, silent (.inr rfl)⟩
  | collision =>
    refine ⟨rfl, rfl, fun sm known => ?_, fun sm conflict => ?_, fun hand => State.hostOutcome_held g (by rwa [entry]) (by simp)⟩
    · refine (still sm).trans ?_
      rw [← State.makeConflict_eq m g h (by rw [entry]; rcases known with st | st | st <;> rw [st] <;> simp), entry]
      rcases known with st | st | st <;> rw [st]
    · refine (still sm).trans ?_
      rw [entry, conflict]
      exact State.appendResolution_eq_ite m g h
  | contention => exact ⟨rfl, rfl, State.hostOutcome_contention g⟩
  | sent => exact unsent hc
  | stuck => exact hc

/-! ### Resolutions -/

theorem State.updLine_resolutionOutcome (s : State) (g : Seg) (f : Line → Line) (h : Handle) (x : Ident) (o : LineOutcome) :
    (s.updLine g f).resolutionOutcome g h x o = (s.resolutionOutcome g h x o).updLine g f := by
  have drop (t : State) : (t.updLine g f).dropResolution g h = (t.dropResolution g h).updLine g f :=
    State.updLine_resolution t g f (·.filter (· != h))
  unfold State.resolutionOutcome
  rw [State.updLine_entry]
  dsimp only
  cases (s.entry h).state with
  | conflict =>
    cases o with
    | accept d =>
      dsimp only
      split
      · rw [State.updLine_confirm, drop]
      · exact drop s
    | noReply => dsimp only; rw [State.updLine_makeAbsent, drop]
    | refuse | framing | collision | contention | sent | stuck => exact drop s
  | retiring pr r =>
    dsimp only
    split
    · rw [State.updLine_setSilence, drop]
    · exact drop s
  | free | seeded | present | absent | moving => exact drop s

/-- Settles O52: the entry's state, then the outcome. -/
theorem resolutionStepTwoDecidesTheEntry : Obligations.ResolutionStepTwoDecidesTheEntry := by
  intro s m g a t c o h x adr hat hf hw hc e leaves answers
  obtain ⟨entry, -, -, -⟩ := State.concludes_same hc
  have accepts := LineOutcome.accepts_iff hc (by rw [hf, hw]; rfl) x
  have leaves_of {u : State} (hu : m.resolutionOutcome g h x o = u.dropResolution g h) : leaves u := by
    change exec c s = _
    rw [exec_of_final hat hc, State.finalOutcome, hw]
    dsimp only
    rw [State.clearAttempt, State.updLine_resolutionOutcome, State.endActivity_eq, State.ended_updLine, hu]
    rfl
  have st : (m.entry h).state = e.state := congrArg Entry.state (entry h)
  refine ⟨fun conflict => ⟨fun yes => leaves_of ?_, fun silent => leaves_of ?_, fun no loud => leaves_of ?_⟩,
    fun pr f retiring => ⟨fun yes => leaves_of ?_, fun no => leaves_of ?_⟩, fun n1 n2 => leaves_of ?_⟩ <;>
    unfold State.resolutionOutcome
  · obtain ⟨cls, rfl⟩ := yes
    have right : replyIdentity (identBytes x ++ [cls]) = x := by
      simpa only [LineOutcome.accepts, beq_iff_eq] using accepts.2 ⟨cls, rfl⟩
    rw [st.trans conflict]
    dsimp only
    rw [if_pos right, State.confirm_eq m h (by rw [st, conflict]; simp), entry]
  · rw [st.trans conflict, silent]
    dsimp only
    rw [State.makeAbsent_eq m h _ (by rw [st, conflict]; simp), entry]
  · rw [st.trans conflict]
    cases o with
    | accept d =>
      have wrong : replyIdentity d ≠ x := fun right => no (accepts.1 (by simpa [LineOutcome.accepts] using right))
      dsimp only
      rw [if_neg wrong]
    | noReply => exact absurd rfl loud
    | refuse | framing | collision | contention | sent | stuck => rfl
  · rw [st.trans retiring]
    dsimp only
    rw [if_pos (accepts.2 yes), State.setSilence, entry]
  · rw [st.trans retiring]
    dsimp only
    rw [if_neg (mt accepts.1 no)]
  · rw [st]
    cases hs : e.state with
    | conflict => exact absurd hs n1
    | retiring pr f => exact absurd hs (n2 pr f)
    | free | seeded | present | absent | moving => rfl

end Sys2Proof.Machine
end

section
/-! PROOFS. The MOVE ladder, the end of a RETIRE, and the frames that await nothing (R123, R129, R142, R148 to R157). -/

namespace Sys2Proof.Machine

/-! ### The ladder of a MOVE -/

/-- The end of a ladder, from the state after its effect with the attempt over (R151). -/
theorem State.finishMove_clearAttempt (u : State) (g : Seg) (a : Activity) (h : Handle) (st : Status) (code : Byte) (step : MoveStep) :
    (u.clearAttempt g).finishMove g a h st code step =
      (u.told a.owner st (u.entry h).generation
        [code, step.number, stateCode (u.entry h).state, (u.entry h).address]).ended g := by
  rw [State.finishMove, State.finishOwner_eq, State.endActivity_eq]
  simp only [State.moveAnswer, State.clearAttempt, State.updLine_entry, State.updLine_told]
  exact State.ended_updLine _ g

section
variable {s : State} {h : Handle} {prior : Prior} {target : Byte} (moving : (s.entry h).state = .moving prior target)
include moving

/-- The end of a ladder empties the target before the entry gets its state (R151). -/
theorem State.endMove_moving (f : State → State) : s.endMove h f = f (s.setMap (s.entry h).segment target .empty) := by
  rw [State.endMove, moving]

theorem State.completeMove_moving :
    s.completeMove h =
      ((s.setMap (s.entry h).segment (s.entry h).address .empty).setMap (s.entry h).segment target (.held h)).moved h
        { s.entry h with address := target, state := .present, silence := 0, age := 0 } := by
  rw [State.completeMove, moving]
  exact State.change_of_state _ h _ (by simp [moving, stateCode]) (by simp) (by simp)

/-- A MOVE that ends without running, or that met contention, takes its entry back (R94). -/
theorem State.returnEntry_moving :
    s.returnEntry h = (s.setMap (s.entry h).segment target .empty).backTo h prior (s.entry h).silence := by
  rw [State.returnEntry, moving]
  exact State.restore_eq _ h prior _ (.inl ⟨prior, target, by rw [State.setMap_entry, moving]⟩)

end

/-- Settles O53: each step's outcomes, in the order of the ladder. -/
theorem moveLadderStepsAndEndings : Obligations.MoveLadderStepsAndEndings := by
  intro s m g a t c o step h x adr target prior hat hf hw moving hc e goesTo ends emptied confirmed completed silent answers
  obtain ⟨entry, -, -, -⟩ := State.concludes_same hc
  have final : exec c s = .next ((m.clearAttempt g).moveOutcome g a step h adr target x o) := by
    rw [exec_of_final hat hc, State.finalOutcome, hw]
  let n := m.clearAttempt g
  have nentry : n.entry h = e := (State.updLine_entry ..).trans (entry h)
  have nmoving : (n.entry h).state = .moving prior target := by rw [nentry]; exact moving
  have goes {k : MoveStep} (hk : n.moveOutcome g a step h adr target x o = n.stepTo g a (.move k h adr target x)) : goesTo k := by
    change exec c s = _
    rw [final, hk, State.stepTo_clearAttempt]
  have ends_of {u v : State} {st : Status} {code : Byte} (k : MoveStep)
      (hk : n.moveOutcome g a step h adr target x o = v.finishMove g a h st code k) (hv : v = u.clearAttempt g) :
      ends u st code k.number := by
    change exec c s = _
    rw [final, hk, hv, State.finishMove_clearAttempt]
  have unmoved (f : State → State) : n.endMove h f = f (emptied.clearAttempt g) := by
    rw [State.endMove_moving nmoving, nentry]
    exact congrArg f (State.updLine_setMap ..)
  have eentry : emptied.entry h = e := (State.setMap_entry ..).trans (entry h)
  have other (k : EntryState) (ne : ∀ p b, k ≠ .moving p b) : (emptied.entry h).state ≠ k := by
    rw [eentry]
    exact fun hk => ne prior target (hk.symm.trans moving)
  have toConfirmed : n.endMove h (·.confirm h) = confirmed.clearAttempt g := by
    rw [unmoved, State.clearAttempt, State.updLine_confirm, State.confirm_eq _ h (other _ (by simp)), eentry]
    rfl
  have toDisputed : n.endMove h (·.makeConflict g h) = (emptied.disputed g h).clearAttempt g := by
    rw [unmoved, State.clearAttempt, State.updLine_makeConflict, State.makeConflict_eq _ g h (other _ (by simp))]
    rfl
  have toSilent : (n.endMove h fun t => t.makeAbsent h (t.entry h).silence) = silent.clearAttempt g := by
    rw [unmoved, State.clearAttempt, State.updLine_entry, State.updLine_makeAbsent, State.makeAbsent_eq _ h _ (other _ (by simp)), eentry]
    rfl
  have toBack : n.returnEntry h = (emptied.backTo h prior e.silence).clearAttempt g := by
    rw [State.returnEntry_moving nmoving, nentry]
    exact (congrArg (State.backTo · h prior e.silence) (State.updLine_setMap ..)).trans (State.updLine_backTo ..)
  have toCompleted : n.completeMove h = completed.clearAttempt g := by
    rw [State.completeMove_moving nmoving, nentry]
    simp only [n, State.clearAttempt, State.updLine_setMap, State.updLine_moved]
    rfl
  cases step with
  | one =>
    cases o with
    | accept d => exact goes rfl
    | refuse code => exact ends_of .one rfl toConfirmed
    | noReply | framing => exact goes rfl
    | collision => exact ends_of .one rfl toDisputed
    | contention => exact ends_of .one rfl toBack
    | sent => exact State.not_concludes_sent (by rw [hf, hw]; rfl) hc
    | stuck => exact hc
  | two =>
    have accepts := LineOutcome.accepts_iff hc (by rw [hf, hw]; rfl) x
    cases o with
    | accept d =>
      have right : replyIdentity d = x ↔ answers := by simpa only [LineOutcome.accepts, beq_iff_eq] using accepts
      exact ⟨fun yes => ends_of .two (if_pos (right.2 yes)) toCompleted, fun no => goes (if_neg (mt right.1 no))⟩
    | collision => exact goes rfl
    | noReply | framing | contention => exact goes rfl
    | refuse code => exact State.not_concludes_refuse (by rw [hf, hw]; rfl) hc
    | sent => exact State.not_concludes_sent (by rw [hf, hw]; rfl) hc
    | stuck => exact hc
  | stray => exact goes rfl
  | three =>
    have accepts := LineOutcome.accepts_iff hc (by rw [hf, hw]; rfl) x
    cases o with
    | accept d =>
      have right : replyIdentity d = x ↔ answers := by simpa only [LineOutcome.accepts, beq_iff_eq] using accepts
      exact ⟨fun yes => ends_of .three (if_pos (right.2 yes)) toConfirmed,
        fun no => ends_of .three (if_neg (mt right.1 no)) toDisputed⟩
    | noReply | framing => exact ends_of .three rfl toSilent
    | collision => exact ends_of .three rfl toDisputed
    | contention => exact ends_of .three rfl toBack
    | refuse code => exact State.not_concludes_refuse (by rw [hf, hw]; rfl) hc
    | sent => exact State.not_concludes_sent (by rw [hf, hw]; rfl) hc
    | stuck => exact hc

/-! ### The end of a RETIRE -/

theorem State.finishOwner_retire (u : State) (g : Seg) (o : Option Owner) (h : Handle) (st : Status) (code : Byte) (b : Bool) :
    ((u.clearAttempt g).finishOwner o ((u.clearAttempt g).retireAnswer h st code b)).endActivity g =
      (u.told o st (u.entry h).generation [code, boolByte b, stateCode (u.entry h).state]).ended g := by
  rw [State.finishOwner_eq, State.endActivity_eq]
  simp only [State.retireAnswer, State.clearAttempt, State.updLine_entry, State.updLine_told]
  exact State.ended_updLine _ g

/-- What the outcome of a RELEASE does to the RETIRING entry (R156, R157). -/
theorem State.retireEffect_retiring {s : State} {h : Handle} {prior : Prior} {f : Bool} (g : Seg)
    (retiring : (s.entry h).state = .retiring prior f) (force : Bool) (o : LineOutcome) :
    s.retireEffect g h force o =
      match force, o with
      | true, _ | _, .accept _ => s.retired h
      | false, .refuse _ => s.backTo h prior 0
      | false, .noReply | false, .framing => s.backTo h prior (min ((s.entry h).silence + 1) 7)
      | false, .collision => s.disputed g h
      | false, .contention | false, .sent | false, .stuck => s.backTo h prior (s.entry h).silence := by
  have held : (s.entry h).state ≠ .free := by rw [retiring]; simp
  have back (k : Nat) := State.restore_eq s h prior k (.inr ⟨prior, f, retiring⟩)
  have calm : (s.entry h).state ≠ .conflict := by rw [retiring]; simp
  unfold State.retireEffect
  rw [retiring]
  cases force with
  | true => exact State.freeRetired_eq s h held
  | false =>
    cases o with
    | accept => exact State.freeRetired_eq s h held
    | collision => exact State.makeConflict_eq s g h calm
    | refuse | noReply | framing | contention | sent | stuck => exact back _

/-- Settles O54: the effect and the answer of each outcome, with and without force. -/
theorem retireOutcomesFreeOrReturnTheEntry : Obligations.RetireOutcomesFreeOrReturnTheEntry := by
  intro s m g a t c o h adr force f prior hat hf hw retiring hc e ends
  obtain ⟨entry, -, -, -⟩ := State.concludes_same hc
  let n := m.clearAttempt g
  have nentry : n.entry h = e := (State.updLine_entry ..).trans (entry h)
  have effect := State.retireEffect_retiring g (show (n.entry h).state = .retiring prior f by rw [nentry]; exact retiring) force o
  rw [nentry] at effect
  have ends_of {u : State} {st : Status} {code : Byte} (b : Bool) (hu : n.retireEffect g h force o = u.clearAttempt g)
      (hr : retireResult force o = (st, code, b)) : ends u st code (boolByte b) := by
    change exec c s = _
    rw [exec_of_final hat hc, State.finalOutcome, hw]
    dsimp only
    rw [State.retireOutcome, hr, hu]
    exact congrArg Host.Outcome.next (State.finishOwner_retire ..)
  have retires : n.retired h = (m.retired h).clearAttempt g := State.updLine_retired ..
  have goesBack (k : Nat) : n.backTo h prior k = (m.backTo h prior k).clearAttempt g := State.updLine_backTo ..
  have replies : t.frame.function.expectsReply = true := by rw [hf, hw]; rfl
  cases force with
  | true =>
    cases o with
    | accept => exact ends_of false (effect.trans retires) rfl
    | refuse | noReply | framing | collision | contention => exact ends_of true (effect.trans retires) rfl
    | sent => exact State.not_concludes_sent replies hc
    | stuck => exact hc
  | false =>
    cases o with
    | accept => exact ends_of false (effect.trans retires) rfl
    | refuse | noReply | framing | contention => exact ends_of false (effect.trans (goesBack _)) rfl
    | collision => exact ends_of false (effect.trans (State.updLine_disputed ..)) rfl
    | sent => exact State.not_concludes_sent replies hc
    | stuck => exact hc

/-! ### Frames that await nothing -/

/-- The counts of an engine do not depend on its line. -/
theorem State.clearAttempt_counts (s : State) (g : Seg) (n : Nat → Nat) (c : PassRecord → PassRecord) :
    ((s.clearAttempt g).updEngine g fun e => { e with parked := n e.parked, pass := c e.pass }) =
      (s.updEngine g fun e => { e with parked := n e.parked, pass := c e.pass }).clearAttempt g := by
  simp only [State.clearAttempt, State.updLine_eq, State.updEngine_updEngine]

/-- Settles O55: the four kinds of work whose frame is not replied to. -/
theorem sentFrameEndsItsActivity : Obligations.SentFrameEndsItsActivity := by
  intro s m g a t c o hat hf hc
  have final := exec_of_final hat hc
  refine ⟨fun item data hw => ?_, fun w hw => ⟨?_, ?_⟩, fun hw => ⟨?_, ?_⟩, fun h adr x hw _ => ?_⟩ <;>
    rw [State.finalOutcome, hw] at final <;> rw [final] <;> clear final <;> dsimp only
  · have told (st : Status) (ho : o.status = st) :
        (m.clearAttempt g).broadcastOutcome g a o = (m.told a.owner st 0 []).ended g := by
      rw [State.broadcastOutcome, State.finishOwner_eq, State.endActivity_eq, State.clearAttempt, State.updLine_told,
        State.ended_updLine, ho]
      rfl
    refine ⟨fun ho => congrArg _ (told .ok ?_), fun ho => congrArg _ (told .contention ?_)⟩ <;> rw [ho] <;> rfl
  · rintro rfl
    rw [State.parkOutcome, if_pos rfl, State.endContest_eq]
    refine congrArg Host.Outcome.next (Eq.trans (congrArg (State.contestEnded · g) ?_) (State.contestEnded_clearAttempt _ g))
    exact State.clearAttempt_counts m g (fun n => min (n + 1) 255) fun x => { x with parked := x.parked + 1 }
  · rintro rfl
    rw [State.parkOutcome, if_neg (by simp), State.endContest_eq, State.clearAttempt, State.updLine_updPass,
      State.contestEnded_updLine]
    rfl
  · rintro rfl
    rw [State.unparkOutcome, if_pos rfl, State.endActivity_eq]
    refine congrArg Host.Outcome.next (Eq.trans (congrArg (State.ended · g) ?_) (State.ended_clearAttempt _ g))
    exact State.clearAttempt_counts m g (fun _ => 0) id
  · rintro rfl
    rw [State.unparkOutcome, if_neg (by simp), State.endActivity_eq, State.ended_clearAttempt]
  · rw [State.stepTo_clearAttempt]

end Sys2Proof.Machine
end

section
/-! PROOFS. The lowest EMPTY address, the lowest FREE entry, and the join decision (R127, R128). -/

namespace Sys2Proof.Machine

/-! ### The lowest EMPTY address and the lowest FREE entry -/

theorem mem_allAddresses {b : Byte} : b ∈ allAddresses ↔ isAddress b = true := by
  simp only [allAddresses, List.mem_map, List.mem_range, isAddress, Bool.and_eq_true, decide_eq_true_eq]
  constructor
  · rintro ⟨k, hk, rfl⟩
    simp [byte]
    omega
  · rintro ⟨low, high⟩
    exact ⟨b.toNat - 1, by omega, BitVec.eq_of_toNat_eq (by simp [byte]; omega)⟩

/-- An address of segment `g` that a join may take (R128). -/
def State.vacant (s : State) (g : Seg) (b : Byte) : Prop := isAddress b = true ∧ s.inPool g b = true ∧ s.mapSlot g b = .empty

theorem State.lowestEmpty_eq_none {s : State} {g : Seg} (full : ¬ ∃ b, s.vacant g b) : s.lowestEmpty g = none := by
  refine List.find?_eq_none.2 fun b hb found => full ⟨b, mem_allAddresses.1 hb, ?_⟩
  simpa using found

theorem State.lowestEmpty_eq_some {s : State} {g : Seg} {b : Byte} (vacant : s.vacant g b)
    (lowest : ∀ b', s.vacant g b' → b.toNat ≤ b'.toNat) : s.lowestEmpty g = some b := by
  obtain ⟨address, pool, empty⟩ := vacant
  have passes : (s.inPool g b && s.mapSlot g b == .empty) = true := by simp [pool, empty]
  cases found : s.lowestEmpty g with
  | none => exact absurd passes (List.find?_eq_none.1 found b (mem_allAddresses.2 address))
  | some b' =>
    obtain ⟨passes', i, hi, here, before⟩ := List.find?_eq_some_iff_getElem.1 found
    have vacant' : s.vacant g b' := ⟨mem_allAddresses.1 (here ▸ List.getElem_mem hi), by simpa using passes'⟩
    have least := lowest b' vacant'
    have hi' : i < 200 := by simpa [allAddresses] using hi
    have place : b'.toNat = i + 1 := by
      rw [← here]
      simp [allAddresses, byte]
      omega
    have range : 1 ≤ b.toNat ∧ b.toNat ≤ 200 := by simpa [isAddress] using address
    have notBefore : ¬ b.toNat - 1 < i := fun lt => by
      have stands : allAddresses[b.toNat - 1]'(by simp [allAddresses]; omega) = b :=
        BitVec.eq_of_toNat_eq (by simp [allAddresses, byte]; omega)
      have := before (b.toNat - 1) lt
      rw [stands, passes] at this
      cases this
    exact congrArg some (BitVec.eq_of_toNat_eq (by omega))

theorem State.lowestFree_isSome {s : State} (free : ∃ h : Handle, (s.entry h).state = .free) : ∃ h, s.lowestFree = some h := by
  obtain ⟨h, free⟩ := free
  refine Option.isSome_iff_exists.1 (List.find?_isSome.2 ⟨h, by simp [allHandles], ?_⟩)
  exact (Entry.isFree_iff _).2 free

/-! ### The join decision -/

/-- The join decision for an identity that no entry holds (R127). -/
theorem State.decide_unheld {s : State} {g : Seg} {w : Ident} (unheld : s.holder w = none) :
    s.decide g w =
      match s.lowestFree, s.lowestEmpty g with
      | none, _ => .park .directoryFull
      | some _, none => .park .poolFull
      | some _, some a => .newJoin a := by
  unfold State.decide
  rw [unheld] <;> rfl

/-- The join decision for an identity whose holder is on the contest's segment (R127). -/
theorem State.decide_here {s : State} {g : Seg} {w : Ident} {h : Handle} (holds : s.holder w = some h)
    (here : (s.entry h).segment = g) :
    s.decide g w =
      match (s.entry h).state with
      | .seeded | .present | .absent => .rejoin h
      | .free | .conflict | .moving _ _ | .retiring _ _ => .park .clash := by
  unfold State.decide
  rw [holds]
  exact if_pos here

/-- The join decision for an identity whose holder is on another segment (R127). -/
theorem State.decide_elsewhere {s : State} {g : Seg} {w : Ident} {h : Handle} (holds : s.holder w = some h)
    (there : (s.entry h).segment ≠ g) :
    s.decide g w =
      match (s.entry h).state with
      | .seeded | .absent =>
        match s.lowestEmpty g with
        | some a => .transfer h a
        | none => .park .poolFull
      | .free | .present | .conflict | .moving _ _ | .retiring _ _ => .park .clash := by
  unfold State.decide
  rw [holds]
  exact if_neg there

@[simp] theorem State.updLine_lowestFree (s : State) (g : Seg) (f : Line → Line) : (s.updLine g f).lowestFree = s.lowestFree := by
  simp only [State.lowestFree, State.updLine_entry]

@[simp] theorem State.updLine_lowestEmpty (s : State) (g k : Seg) (f : Line → Line) :
    (s.updLine g f).lowestEmpty k = s.lowestEmpty k := by
  simp only [State.lowestEmpty, State.updLine_inPool, State.updLine_mapSlot]

@[simp] theorem State.updLine_holder (s : State) (g : Seg) (f : Line → Line) (w : Ident) : (s.updLine g f).holder w = s.holder w := by
  simp only [State.holder, State.updLine_entry]

@[simp] theorem State.updLine_decide (s : State) (g k : Seg) (f : Line → Line) (w : Ident) :
    (s.updLine g f).decide k w = s.decide k w := by
  simp only [State.decide, State.updLine_holder, State.updLine_lowestFree, State.updLine_lowestEmpty, State.updLine_entry]

/-- What a won contest leads to (R127): the contest counted, a JOIN_HOLD or a notice, and the follow-up. -/
theorem State.contestWon_eq (s : State) (g : Seg) (a : Activity) (w : Ident) (c : Byte) :
    (s.clearAttempt g).contestWon g a w c =
      match s.decide g w with
      | .newJoin adr => ((s.updPass g PassRecord.countContest).setMap g adr .joinHold).stepped g a (.assign .newJoin w c adr)
      | .transfer _ adr => ((s.updPass g PassRecord.countContest).setMap g adr .joinHold).stepped g a (.assign .transfer w c adr)
      | .rejoin h => (s.updPass g PassRecord.countContest).stepped g a (.assign (.rejoin h) w c (s.entry h).address)
      | .park n => ((s.updPass g PassRecord.countContest).noticed n).stepped g a (.park w) := by
  unfold State.contestWon
  rw [State.clearAttempt, State.updLine_decide, State.updLine_updPass]
  cases s.decide g w with
  | newJoin adr | transfer h adr => dsimp only; rw [State.updLine_setMap, State.stepTo_updLine]
  | rejoin h => exact State.stepTo_updLine ..
  | park n => dsimp only; rw [State.updLine_raise, State.stepTo_updLine, State.raise_eq]

/-- Settles O57: the decision by the holder, its segment and its state. -/
theorem joinDecisionFollowsTheDirectory : Obligations.JoinDecisionFollowsTheDirectory := by
  intro s g a t c hat hp w counted leadsTo vacant lowest unheld
  obtain ⟨ha, ht⟩ := hat
  have attempt : s.attempt g = some t := ht
  have won := State.contestWon_eq s g a w c
  have leads {u : State} {next : Work} (hu : (s.clearAttempt g).contestWon g a w c = u.stepped g a next) : leadsTo u next := by
    refine congrArg Host.Outcome.next ?_
    rw [State.classChar, attempt, ha]
    dsimp only
    rw [if_pos ⟨hp, rfl⟩, if_pos ⟨rfl, rfl⟩]
    exact hu
  have found {b : Byte} (hb : lowest b) : s.lowestEmpty g = some b := State.lowestEmpty_eq_some hb.1 hb.2
  refine ⟨fun un free => ?_, fun un full => ?_, fun h held id only => ?_⟩
  · have decides := State.decide_unheld (g := g) (State.holder_of_unheld un)
    obtain ⟨k, hk⟩ := State.lowestFree_isSome free
    rw [hk] at decides
    refine ⟨fun b hb => leads ?_, fun full => leads ?_⟩
    · rw [won, decides, found hb]; rfl
    · rw [won, decides, State.lowestEmpty_eq_none full]; rfl
  · refine leads ?_
    rw [won, State.decide_unheld (State.holder_of_unheld un), State.lowestFree_eq_none full]; rfl
  · intro e
    have holds : s.holder w = some h := State.holder_of_unique held id only
    refine ⟨fun here st => leads ?_, fun here st => leads ?_, fun there st => ⟨fun b hb => leads ?_, fun full => leads ?_⟩,
      fun there st => leads ?_⟩
    · rw [won, State.decide_here holds here]
      rcases st with st | st | st <;> rw [st] <;> rfl
    · rw [won, State.decide_here holds here]
      rcases st with st | ⟨pr, x, st⟩ | ⟨pr, f, st⟩ <;> rw [st] <;> rfl
    · rw [won, State.decide_elsewhere holds there]
      rcases st with st | st <;> rw [st] <;> dsimp only <;> rw [found hb] <;> rfl
    · rw [won, State.decide_elsewhere holds there]
      rcases st with st | st <;> rw [st] <;> dsimp only <;> rw [State.lowestEmpty_eq_none full] <;> rfl
    · rw [won, State.decide_elsewhere holds there]
      rcases st with st | st | ⟨pr, x, st⟩ | ⟨pr, f, st⟩ <;> rw [st] <;> rfl

end Sys2Proof.Machine
end

section
/-! PROOFS. The outcomes of an ASSIGN, the fresh decision, and the release of a stray (R131 to R135). -/

namespace Sys2Proof.Machine

/-! ### The outcome of an ASSIGN -/

theorem bearingDiffers_cls {e f : Entry} (d : e.cls ≠ f.cls) : bearingDiffers e f = true := by
  simp [bearingDiffers, d]

/-- A contest that ends after a change of its pass record, its attempt over. -/
theorem State.countedEnd (s : State) (g : Seg) (c : PassRecord → PassRecord) :
    ((s.clearAttempt g).updPass g c).endContest g = (s.updPass g c).contestEnded g := by
  rw [State.endContest_eq, State.clearAttempt, State.updLine_updPass, State.contestEnded_updLine]

/-- A rejoin whose entry no longer stands is lost (R132). -/
theorem State.applyRejoin_lost {s : State} {g : Seg} {h : Handle} {w : Ident} {c adr : Byte}
    (gone : ¬ ((s.entry h).identity = w ∧ (s.entry h).segment = g ∧ (s.entry h).address = adr ∧ (s.entry h).state ≠ .free ∧
      (s.entry h).state ≠ .conflict)) :
    (s.clearAttempt g).applyRejoin g h w c adr = (s.updPass g PassRecord.countLost).contestEnded g := by
  have entry : (s.clearAttempt g).entry h = s.entry h := State.updLine_entry ..
  unfold State.applyRejoin
  simp only [entry, State.countedEnd]
  split
  · rename_i still
    obtain ⟨found, addr⟩ := Bool.and_eq_true_iff.1 still
    obtain ⟨held, id, seg⟩ := (State.isStill_iff ..).1 found
    rw [entry] at held id seg
    have conflict : (s.entry h).state = .conflict := by
      by_contra calm
      exact gone ⟨id, seg, beq_iff_eq.1 addr, held, calm⟩
    rw [conflict]
  · rfl

/-- A rejoin whose entry stands is written and counted (R132). -/
theorem State.applyRejoin_stands {s : State} {g : Seg} {h : Handle} {w : Ident} {c adr : Byte}
    (stands : (s.entry h).identity = w ∧ (s.entry h).segment = g ∧ (s.entry h).address = adr ∧ (s.entry h).state ≠ .free ∧
      (s.entry h).state ≠ .conflict) {e : Entry}
    (he : ((s.entry h).inHand ∧ e = { s.entry h with silence := 0, cls := c }) ∨
      (¬ (s.entry h).inHand ∧ e = { s.entry h with state := .present, silence := 0, age := 0, cls := c })) :
    (s.clearAttempt g).applyRejoin g h w c adr =
      ((s.change h e).updPass g fun x => { x with rejoined := x.rejoined + 1 }).contestEnded g := by
  have entry : (s.clearAttempt g).entry h = s.entry h := State.updLine_entry ..
  obtain ⟨id, seg, addr, held, calm⟩ := stands
  have counted (f : Entry) : (((s.clearAttempt g).change h f).updPass g fun x => { x with rejoined := x.rejoined + 1 }).endContest g =
      ((s.change h f).updPass g fun x => { x with rejoined := x.rejoined + 1 }).contestEnded g := by
    rw [State.clearAttempt, State.updLine_change]
    exact State.countedEnd ..
  unfold State.applyRejoin
  dsimp only
  rw [if_pos (by simp [State.isStill, entry, Entry.isFree, id, seg, addr, held]), entry]
  cases st : (s.entry h).state with
  | free => exact absurd st held
  | conflict => exact absurd st calm
  | seeded | present | absent =>
    obtain ⟨hand, -⟩ | ⟨-, rfl⟩ := he
    · rcases hand with ⟨pr, t, hs⟩ | ⟨pr, f, hs⟩ <;> rw [st] at hs <;> cases hs
    · exact counted _
  | moving pr t =>
    obtain ⟨-, rfl⟩ | ⟨free, -⟩ := he
    · dsimp only
      rw [← st]
      exact counted _
    · exact absurd (.inl ⟨pr, t, st⟩) free
  | retiring pr f =>
    obtain ⟨-, rfl⟩ | ⟨free, -⟩ := he
    · dsimp only
      rw [← st]
      exact counted _
    · exact absurd (.inr ⟨pr, f, st⟩) free

/-- A FREE entry that a new join fills is PRESENT (R131). -/
theorem State.applyJoin_eq {s : State} {g : Seg} {h : Handle} {w : Ident} {c adr : Byte} (free : (s.entry h).state = .free) :
    (s.clearAttempt g).applyJoin g h w c adr =
      ((((s.setMap g adr (.held h)).moved h
        { state := .present, generation := 0, identity := w, cls := c, segment := g, address := adr, label := none,
          stride := none, silence := 0, age := 0, claim := none, watchA := (s.entry h).watchA,
          watchB := (s.entry h).watchB }).noticed .joined).updPass g fun x => { x with joined := x.joined + 1 }).contestEnded g := by
  rw [State.applyJoin, State.clearAttempt, State.updLine_setMap, State.updLine_change, State.updLine_entry, State.updLine_raise,
    State.change_of_state _ h _ (by simp [free, Entry.filled, stateCode]) (by simp [Entry.filled, freeEntry])
      (by simp [Entry.filled, freeEntry]), State.raise_eq]
  exact State.countedEnd ..

/-- A SEEDED or ABSENT holder that a transfer takes over is PRESENT on the contest's segment (R133). -/
theorem State.applyTransfer_eq {s : State} {g : Seg} {h : Handle} {c adr : Byte}
    (st : (s.entry h).state = .seeded ∨ (s.entry h).state = .absent) :
    (s.clearAttempt g).applyTransfer g h c adr =
      (((((s.setMap (s.entry h).segment (s.entry h).address .empty).setMap g adr (.held h)).moved h
        { s.entry h with segment := g, address := adr, state := .present, silence := 0, age := 0, cls := c }).noticed
          .joined).updPass g fun x => { x with rejoined := x.rejoined + 1 }).contestEnded g := by
  unfold State.applyTransfer
  dsimp only
  rw [State.clearAttempt, State.updLine_entry, State.updLine_setMap, State.updLine_setMap, State.updLine_change, State.updLine_raise,
    State.change_of_state _ h _ (by rcases st with st | st <;> simp [st, stateCode]) (by simp) (by simp), State.raise_eq]
  exact State.countedEnd ..

theorem State.parkAtReply_eq (s : State) (g : Seg) (a : Activity) (n : Notice) (w : Ident) (adr : Byte) :
    (s.clearAttempt g).parkAtReply g a n w adr = ((s.setMap g adr .empty).noticed n).stepped g a (.releaseStray w adr) := by
  rw [State.parkAtReply, State.clearAttempt, State.updLine_setMap, State.updLine_raise, State.stepTo_updLine, State.raise_eq]

/-- The fresh decision for an identity that an entry holds (R134). -/
theorem State.freshDecision_held {s : State} {g : Seg} {a : Activity} {w : Ident} {c adr : Byte} {h : Handle}
    (holds : s.holder w = some h) :
    ((s.entry h).segment ≠ g → (s.entry h).state = .seeded ∨ (s.entry h).state = .absent →
      s.freshDecision g a w c adr = s.applyTransfer g h c adr) ∧
    (¬ ((s.entry h).segment ≠ g ∧ ((s.entry h).state = .seeded ∨ (s.entry h).state = .absent)) →
      s.freshDecision g a w c adr = s.parkAtReply g a .clash w adr) := by
  unfold State.freshDecision
  rw [holds]
  dsimp only
  refine ⟨fun there st => ?_, fun stays => ?_⟩
  · rw [beq_false_of_ne there]
    rcases st with st | st <;> rw [st]
  · split
    · rename_i there st
      exact absurd ⟨by simpa using there, .inl st⟩ stays
    · rename_i there st
      exact absurd ⟨by simpa using there, .inr st⟩ stays
    · rfl

/-- What a rejoin writes to a MOVING or RETIRING entry: a new class is a directory event, silence is none (R12, R132). -/
theorem State.change_heard (s : State) (h : Handle) (c : Byte) :
    ((s.entry h).cls = c →
      s.change h { s.entry h with silence := 0, cls := c } = s.setEntry h { s.entry h with silence := 0 }) ∧
    ((s.entry h).cls ≠ c →
      s.change h { s.entry h with silence := 0, cls := c } = s.moved h { s.entry h with silence := 0, cls := c }) := by
  refine ⟨?_, fun new => State.change_moved s h _ (bearingDiffers_cls new) rfl rfl⟩
  rintro rfl
  exact State.change_same s h _ (by simp [bearingDiffers]) rfl

/-- What a rejoin writes to an entry in no one's hand (R12, R132). -/
theorem State.change_rejoined (s : State) (h : Handle) (c : Byte) :
    ((s.entry h).state = .present → (s.entry h).cls = c →
      s.change h { s.entry h with state := .present, silence := 0, age := 0, cls := c } =
        s.setEntry h { s.entry h with silence := 0, age := 0 }) ∧
    ((s.entry h).state ≠ .present ∨ (s.entry h).cls ≠ c →
      s.change h { s.entry h with state := .present, silence := 0, age := 0, cls := c } =
        s.moved h { s.entry h with state := .present, silence := 0, age := 0, cls := c }) := by
  refine ⟨fun present same => ?_, ?_⟩
  · have unchanged : { s.entry h with state := .present, silence := 0, age := 0, cls := c } =
        { s.entry h with silence := 0, age := 0 } := by rw [← present, ← same]
    exact (congrArg (s.change h) unchanged).trans (State.change_same s h _ (by simp [bearingDiffers]) rfl)
  · rintro (other | new)
    · refine State.change_of_state s h _ ?_ rfl rfl
      cases hs : (s.entry h).state <;> simp_all [stateCode]
    · exact State.change_moved s h _ (bearingDiffers_cls new) rfl rfl

/-- Settles O58: the rejoin by its entry, the fresh decision by the identity's holder, the stray's release. -/
theorem assignOutcomesApplyTheFreshDecision : Obligations.AssignOutcomesApplyTheFreshDecision := by
  intro s m g a t c o hat hf hc lost rejoined
  obtain ⟨entry, -, -, -⟩ := State.concludes_same hc
  have final := exec_of_final hat hc
  refine ⟨?_, fun w adr hw => ?_⟩
  · intro kind w cls adr hw right unheld
    have accepts : o.accepts w = true ↔ right := LineOutcome.accepts_iff hc (by rw [hf, hw]; rfl) w
    have goes {u : State} (hu : (m.clearAttempt g).assignOutcome g a kind w cls adr o = u) : exec c s = .next u := by
      rw [final, State.finalOutcome, hw]
      exact congrArg Host.Outcome.next hu
    refine ⟨fun h hk => ?_, fun hk => ?_⟩
    · subst hk
      intro e stands
      refine ⟨fun not => goes ?_, fun yes st => ?_⟩
      · by_cases yes : right
        · exact (if_pos (accepts.2 yes)).trans (State.applyRejoin_lost (by rw [entry]; exact fun st => not ⟨yes, st⟩))
        · exact (if_neg (mt accepts.1 yes)).trans (State.countedEnd ..)
      · have applied := fun f => State.applyRejoin_stands (s := m) (c := cls) (e := f) (by rw [entry]; exact st)
        have chosen : ∀ {u}, (m.clearAttempt g).applyRejoin g h w cls adr = u → exec c s = .next u := fun hu =>
          goes ((if_pos (accepts.2 yes)).trans hu)
        have heard := State.change_heard m h cls
        have settled := State.change_rejoined m h cls
        rw [entry] at heard settled applied
        refine ⟨fun hand same => chosen ?_, fun hand new => chosen ?_, fun present same => chosen ?_, fun free other => chosen ?_⟩
        · rw [applied _ (.inl ⟨hand, rfl⟩), heard.1 same]; rfl
        · rw [applied _ (.inl ⟨hand, rfl⟩), heard.2 new]; rfl
        · have free : ¬ (s.entry h).inHand := by
            rintro (⟨pr, t, hs⟩ | ⟨pr, f, hs⟩) <;> exact absurd (present.symm.trans hs) (by simp)
          rw [applied _ (.inr ⟨free, rfl⟩), settled.1 present same]; rfl
        · rw [applied _ (.inr ⟨free, rfl⟩), settled.2 other]; rfl
    · intro emptied
      have fresh (yes : right) : (m.clearAttempt g).assignOutcome g a kind w cls adr o =
          (m.clearAttempt g).freshDecision g a w cls adr := by
        refine (if_pos (accepts.2 yes)).trans ?_
        rcases hk with rfl | rfl <;> rfl
      have nentry (k : Handle) : (m.clearAttempt g).entry k = s.entry k := (State.updLine_entry ..).trans (entry k)
      refine ⟨fun wrong => goes ?_, fun yes un => ?_, fun yes h held id only => ?_⟩
      · refine (if_neg (mt accepts.1 wrong)).trans ?_
        unfold State.assignFailed
        have empties : (m.clearAttempt g).setMap g adr .empty = emptied.clearAttempt g := State.updLine_setMap ..
        rcases hk with rfl | rfl <;> dsimp only <;> rw [empties] <;> exact State.countedEnd ..
      · have unheld : (m.clearAttempt g).holder w = none := State.holder_of_unheld fun k => by rw [nentry]; exact un k
        refine ⟨fun h free least => goes ?_, fun full => goes ?_⟩ <;> rw [fresh yes, State.freshDecision, unheld] <;> dsimp only
        · rw [State.lowestFree_eq_some (by rwa [nentry]) fun k hk => by rw [nentry]; exact least k hk]
          refine (State.applyJoin_eq (by rwa [entry])).trans ?_
          rw [entry]
          rfl
        · rw [State.lowestFree_eq_none fun k => by rw [nentry]; exact full k]
          exact State.parkAtReply_eq ..
      · intro e movable
        have holds : (m.clearAttempt g).holder w = some h := State.holder_of_unique (by rwa [nentry]) (by rwa [nentry])
          fun k => by rw [nentry]; exact only k
        obtain ⟨moves, stays⟩ := State.freshDecision_held (g := g) (a := a) (c := cls) (adr := adr) holds
        rw [nentry] at moves stays
        refine ⟨fun there => goes ?_, fun here => goes ?_⟩
        · rw [fresh yes, moves there.1 there.2, State.applyTransfer_eq (by rw [entry]; exact there.2), entry]
          rfl
        · rw [fresh yes, stays here]
          exact State.parkAtReply_eq ..
  · rw [final, State.finalOutcome, hw]
    exact congrArg Host.Outcome.next (State.stepTo_clearAttempt ..)

end Sys2Proof.Machine
end

section
/-! PROOFS. `State.DirectoryOnly`: the events that change the directory and leave every request and every activity where it stands. -/

namespace Sys2Proof.Machine

/-- `t` is `s` with only the directory, the maps, the notice units, the run state and the resolution lists changed: every request
and every activity stands where it stood. -/
structure State.DirectoryOnly (s t : State) : Prop where
  slots : ∀ p, (t.port p).slots = (s.port p).slots
  waiting : ∀ p, (t.port p).waiting = (s.port p).waiting
  completed : ∀ p, (t.port p).completed = (s.port p).completed
  waitsFor : ∀ p, (t.port p).waitsFor = (s.port p).waitsFor
  engine : ∀ k, ∃ l, t.engine k = { s.engine k with resolution := l }

namespace State.DirectoryOnly

theorem refl (s : State) : s.DirectoryOnly s := ⟨fun _ => rfl, fun _ => rfl, fun _ => rfl, fun _ => rfl, fun _ => ⟨_, rfl⟩⟩

theorem trans {s t u : State} (h : s.DirectoryOnly t) (k : t.DirectoryOnly u) : s.DirectoryOnly u where
  slots p := (k.slots p).trans (h.slots p)
  waiting p := (k.waiting p).trans (h.waiting p)
  completed p := (k.completed p).trans (h.completed p)
  waitsFor p := (k.waitsFor p).trans (h.waitsFor p)
  engine g := by
    obtain ⟨l, hl⟩ := h.engine g
    obtain ⟨l', hl'⟩ := k.engine g
    exact ⟨l', by rw [hl', hl]⟩

theorem ite {s t u : State} {c : Prop} [Decidable c] (ht : s.DirectoryOnly t) (hu : s.DirectoryOnly u) :
    s.DirectoryOnly (if c then t else u) := by split <;> assumption

theorem slot {s t : State} (h : s.DirectoryOnly t) (p : PortId) (i : SlotIx) : t.slot p i = s.slot p i := by
  rw [State.slot, h.slots]
  rfl

variable (s : State) (g : Seg) (h : Handle)

theorem setEntry (e : Entry) : s.DirectoryOnly (s.setEntry h e) :=
  ⟨fun _ => by simp, fun _ => by simp, fun _ => by simp, fun _ => by simp, fun k => ⟨_, by rw [State.setEntry_engine]⟩⟩

theorem setMap (b : Byte) (m : MapSlot) : s.DirectoryOnly (s.setMap g b m) :=
  ⟨fun _ => by simp, fun _ => by simp, fun _ => by simp, fun _ => by simp, fun k => ⟨_, by rw [State.setMap_engine]⟩⟩

theorem change (e : Entry) : s.DirectoryOnly (s.change h e) where
  slots p := (State.change_ports s h e p).1
  waiting p := (State.change_ports s h e p).2.1
  completed p := (State.change_ports s h e p).2.2.1
  waitsFor p := (State.change_ports s h e p).2.2.2.1
  engine k := ⟨_, by rw [State.change_engine]⟩

theorem raise (n : Notice) : s.DirectoryOnly (s.raise n) := by
  rw [State.raise_eq]
  exact ⟨fun p => by rw [State.noticed_port]; rfl, fun p => by rw [State.noticed_port]; rfl,
    fun p => by rw [State.noticed_port]; rfl, fun p => by rw [State.noticed_port]; rfl, fun k => ⟨_, rfl⟩⟩

theorem updResolution {f : Engine → Engine} (hf : ∀ e, ∃ l, f e = { e with resolution := l }) :
    s.DirectoryOnly (s.updEngine g f) where
  slots _ := by simp
  waiting _ := by simp
  completed _ := by simp
  waitsFor _ := by simp
  engine k := by
    rw [State.updEngine_engine]
    split
    · rename_i same
      exact same ▸ hf _
    · exact ⟨_, rfl⟩

theorem appendResolution : s.DirectoryOnly (s.appendResolution g h) := by
  rw [State.appendResolution_eq_ite]
  exact updResolution s g fun _ => ⟨_, rfl⟩

theorem dropResolution : s.DirectoryOnly (s.dropResolution g h) := updResolution s g fun _ => ⟨_, rfl⟩

theorem makeAbsent (n : Nat) : s.DirectoryOnly (s.makeAbsent h n) := (change ..).trans (raise ..)

theorem restore (prior : Prior) (n : Nat) : s.DirectoryOnly (s.restore h prior n) := by
  cases prior with
  | seeded | present => exact ite (makeAbsent ..) (change ..)
  | absent | conflict => exact change ..

theorem returnEntry : s.DirectoryOnly (s.returnEntry h) := by
  unfold State.returnEntry
  cases (s.entry h).state with
  | moving => exact (setMap ..).trans (restore ..)
  | retiring => exact restore ..
  | free | seeded | present | absent | conflict => exact refl s

theorem makeConflict : s.DirectoryOnly (s.makeConflict g h) := ((change ..).trans (appendResolution ..)).trans (raise ..)

theorem freeRetired : s.DirectoryOnly (s.freeRetired h) := ((setMap ..).trans (change ..)).trans (raise ..)

theorem setSilence (n : Nat) : s.DirectoryOnly (s.setSilence h n) := setEntry ..

theorem countSilence : s.DirectoryOnly (s.countSilence h) := ite (makeAbsent ..) (setSilence ..)

theorem confirm : s.DirectoryOnly (s.confirm h) := change ..

theorem ageAbsent : s.DirectoryOnly (s.ageAbsent h) := by
  unfold State.ageAbsent
  exact ite ((setEntry ..).trans (freeRetired ..)) (setEntry ..)

theorem hostOutcome (x : Ident) (sg : Seg) (o : LineOutcome) : s.DirectoryOnly (s.hostOutcome g h x sg o) := by
  unfold State.hostOutcome
  refine ite ?_ (refl s)
  cases o with
  | accept | refuse => exact setSilence ..
  | noReply | framing =>
    cases (s.entry h).state with
    | seeded | present => exact countSilence ..
    | absent | conflict => exact setSilence ..
    | free | moving | retiring => exact refl s
  | collision =>
    cases (s.entry h).state with
    | seeded | present | absent => exact makeConflict ..
    | conflict => exact appendResolution ..
    | free | moving | retiring => exact refl s
  | contention | sent | stuck => exact refl s

theorem pollOutcome (x : Ident) (sg : Seg) (o : LineOutcome) : s.DirectoryOnly (s.pollOutcome g h x sg o) := by
  unfold State.pollOutcome
  refine ite ?_ (refl s)
  cases (s.entry h).state with
  | seeded | present =>
    cases o with
    | accept => exact ite (confirm ..) (makeConflict ..)
    | collision => exact makeConflict ..
    | noReply | framing => exact countSilence ..
    | refuse | contention | sent | stuck => exact refl s
  | absent =>
    cases o with
    | accept => exact ite (confirm ..) (makeConflict ..)
    | collision => exact makeConflict ..
    | noReply | framing => exact ageAbsent ..
    | refuse | contention | sent | stuck => exact refl s
  | moving | retiring => exact ite (setSilence ..) (refl s)
  | free | conflict => exact refl s

theorem resolutionOutcome (x : Ident) (o : LineOutcome) : s.DirectoryOnly (s.resolutionOutcome g h x o) := by
  refine trans ?_ (dropResolution _ g h)
  cases (s.entry h).state with
  | conflict =>
    cases o with
    | accept => exact ite (confirm ..) (refl s)
    | noReply => exact makeAbsent ..
    | refuse | framing | collision | contention | sent | stuck => exact refl s
  | retiring => exact ite (setSilence ..) (refl s)
  | free | seeded | present | absent | moving => exact refl s

theorem endMove {f : State → State} (hf : ∀ t : State, t.DirectoryOnly (f t)) : s.DirectoryOnly (s.endMove h f) := by
  unfold State.endMove
  cases (s.entry h).state with
  | moving => exact (setMap ..).trans (hf _)
  | free | seeded | present | absent | conflict | retiring => exact refl s

theorem completeMove : s.DirectoryOnly (s.completeMove h) := by
  unfold State.completeMove
  cases (s.entry h).state with
  | moving => exact ((setMap ..).trans (setMap ..)).trans (change ..)
  | free | seeded | present | absent | conflict | retiring => exact refl s

theorem retireEffect (force : Bool) (o : LineOutcome) : s.DirectoryOnly (s.retireEffect g h force o) := by
  unfold State.retireEffect
  cases (s.entry h).state with
  | retiring =>
    refine ite (freeRetired ..) ?_
    cases o with
    | accept => exact freeRetired ..
    | collision => exact makeConflict ..
    | refuse | noReply | framing | contention | sent | stuck => exact restore ..
  | free | seeded | present | absent | conflict | moving => exact refl s

theorem returnItem (x : QueueItem) : s.DirectoryOnly (s.returnItem x) := by
  unfold State.returnItem
  split
  · exact ite (returnEntry ..) (refl s)
  · exact refl s

theorem returnItems (xs : List QueueItem) : s.DirectoryOnly (s.returnItems xs) := by
  induction xs generalizing s with
  | nil => exact refl s
  | cons x xs ih => exact (returnItem s x).trans (ih _)

end State.DirectoryOnly

end Sys2Proof.Machine
end

section
/-! PROOFS. The end of an activity with its pass, at the limit or after a switch-off (R92, R137, R138). -/

namespace Sys2Proof.Machine

/-! ### The end of an activity with its pass -/

/-- In `u` the activity and the pass of segment `g` are over, where `s` had a pass in progress: the engine is IDLE or OFF, the
pass record holds `counts`, and the attached DISCOVERs are answered with them (R72, R137, R138). -/
def State.overIn (s u : State) (g : Seg) (counts : PassRecord) (st : Status) (reason : Byte) : Prop :=
  (u.engine g).activity = none ∧ (u.engine g).line.attempt = none ∧ (u.engine g).offTaken = false ∧
    (u.engine g).state = (if (s.engine g).settings.on then .idle else .off) ∧
    (u.engine g).pass = { counts with active := false, attached := [] } ∧
    (s.slotsAgree → s.attachedAnswered u g st reason counts)

/-- `v` has the requests of `s`, and in engine `g` its settings, its activity's switch-off mark, and its pass with the counts of
`counts`. -/
structure State.CountsTo (s v : State) (g : Seg) (counts : PassRecord) : Prop where
  slot : ∀ p i, v.slot p i = s.slot p i
  settings : (v.engine g).settings = (s.engine g).settings
  offTaken : (v.engine g).offTaken = (s.engine g).offTaken
  pass : (v.engine g).pass = counts
  active : counts.active = (s.engine g).pass.active
  attached : counts.attached = (s.engine g).pass.attached

theorem State.CountsTo.staysOn {s v : State} {g : Seg} {counts : PassRecord} (k : s.CountsTo v g counts) :
    (v.engine g).staysOn = (s.engine g).staysOn := by
  rw [Engine.staysOn, k.settings, k.offTaken]
  rfl

/-- The activity's mere end: the engine with nothing in progress. -/
def State.idled (s : State) (g : Seg) : State :=
  s.updEngine g fun e =>
    { e with
      state := if e.settings.on then .idle else .off
      tookQueue := e.settings.on && e.tookQueue
      offTaken := false, activity := none, line := { e.line with attempt := none } }

/-- The end of a pass with its activity, in either order. -/
theorem State.CountsTo.over {s v : State} {g : Seg} {counts : PassRecord} (k : s.CountsTo v g counts)
    (active : (s.engine g).pass.active = true) {u : State} {st : Status} {reason : Byte}
    (hu : u = (v.idled g).passOver g st reason ∨ u = (v.passOver g st reason).idled g) : s.overIn u g counts st reason := by
  have idledActive : ((v.idled g).engine g).pass.active = true := by
    rw [State.idled, State.updEngine_engine_same]
    exact (congrArg PassRecord.active k.pass).trans (k.active.trans active)
  have commutes : (v.idled g).passOver g st reason = (v.passOver g st reason).idled g :=
    State.passOver_updEngine v g _ st reason (fun _ => rfl) fun _ _ => rfl
  have u_eq : u = (v.idled g).passOver g st reason := hu.elim id fun h => h.trans commutes.symm
  subst u_eq
  have engine := State.passOver_engine_same idledActive st reason
  have idled : (v.idled g).engine g =
      { v.engine g with
        state := if (v.engine g).settings.on then .idle else .off
        tookQueue := (v.engine g).settings.on && (v.engine g).tookQueue
        offTaken := false, activity := none, line := { (v.engine g).line with attempt := none } } := by
    rw [State.idled, State.updEngine_engine_same]
  rw [idled] at engine
  refine ⟨by rw [engine], by rw [engine], by rw [engine], by rw [engine, ← k.settings], by rw [engine, ← k.pass], fun agree => ?_⟩
  obtain ⟨distinct, onLine⟩ := agree.attachedSound g
  have same : ((v.idled g).engine g).pass = counts := by rw [idled]; exact k.pass
  have sound : (v.idled g).attachedSound g := by
    refine ⟨by rw [same, k.attached]; exact distinct, fun y hy => ?_⟩
    rw [same, k.attached] at hy
    rw [State.idled, State.updEngine_slot, k.slot]
    exact onLine y hy
  have done := State.attachedAnswered_passOver sound idledActive st reason
  rw [same] at done
  exact done.congr (by rw [same, k.attached]) fun _ _ => rfl

/-- An activity during which its segment was switched off ends the pass OFF (R92, R137). -/
theorem State.CountsTo.ended {s v : State} {g : Seg} {counts : PassRecord} (k : s.CountsTo v g counts)
    (active : (s.engine g).pass.active = true) (off : (s.engine g).staysOn = false) :
    s.overIn (v.ended g) g counts .segmentOff 4 :=
  k.over active (.inl (if_neg (by rw [k.staysOn, off]; simp)))

/-- A contest activity ends its pass OFF after a switch-off, and LIMIT with the 64th contest (R137). -/
theorem State.CountsTo.contestEnded {s v : State} {g : Seg} {counts : PassRecord} (k : s.CountsTo v g counts)
    (active : (s.engine g).pass.active = true) :
    ((s.engine g).staysOn = false → s.overIn (v.contestEnded g) g counts .segmentOff 4) ∧
      ((s.engine g).staysOn = true → 64 ≤ counts.contests → s.overIn (v.contestEnded g) g counts .ok 2) := by
  refine ⟨fun off => ?_, fun on full => ?_⟩
  · rw [State.contestEnded, if_neg (by rw [k.staysOn, off]; simp)]
    exact k.ended active off
  · have stays : ((v.passOver g .ok 2).engine g).staysOn = true := by
      rw [State.passOver_engine_same (by rw [k.pass, k.active, active])]
      exact k.staysOn.trans on
    rw [State.contestEnded, if_pos ⟨k.staysOn.trans on, by rw [k.pass]; exact full⟩]
    exact k.over active (.inr (if_pos stays))

section
variable {s v w : State} {g : Seg} {counts : PassRecord}

theorem State.CountsTo.refl (s : State) (g : Seg) : s.CountsTo s g (s.engine g).pass := ⟨fun _ _ => rfl, rfl, rfl, rfl, rfl, rfl⟩

theorem State.CountsTo.updLine (k : s.CountsTo v g counts) (f : Line → Line) : s.CountsTo (v.updLine g f) g counts where
  slot p i := (State.updEngine_slot ..).trans (k.slot p i)
  settings := (State.updLine_settings ..).trans k.settings
  offTaken := by rw [State.updLine_eq, State.updEngine_engine_same]; exact k.offTaken
  pass := (State.updLine_pass ..).trans k.pass
  active := k.active
  attached := k.attached

theorem State.CountsTo.directoryOnly (k : s.CountsTo v g counts) (only : v.DirectoryOnly w) : s.CountsTo w g counts := by
  obtain ⟨l, hl⟩ := only.engine g
  exact ⟨fun p i => (only.slot p i).trans (k.slot p i), by rw [hl]; exact k.settings, by rw [hl]; exact k.offTaken,
    by rw [hl]; exact k.pass, k.active, k.attached⟩

/-- An update of engine `g` that moves the counts of its pass. -/
theorem State.CountsTo.updEngine (k : s.CountsTo v g counts) {f : Engine → Engine} {more : PassRecord}
    (settings : ∀ e, (f e).settings = e.settings) (offTaken : ∀ e, (f e).offTaken = e.offTaken)
    (pass : ∀ e, e.pass = counts → (f e).pass = more) (active : more.active = counts.active)
    (attached : more.attached = counts.attached) : s.CountsTo (v.updEngine g f) g more where
  slot p i := (State.updEngine_slot ..).trans (k.slot p i)
  settings := by rw [State.updEngine_engine_same, settings]; exact k.settings
  offTaken := by rw [State.updEngine_engine_same, offTaken]; exact k.offTaken
  pass := by rw [State.updEngine_engine_same]; exact pass _ k.pass
  active := active.trans k.active
  attached := attached.trans k.attached

end

/-- Settles O59: each activity's last state before its end counts as the statement says. -/
theorem passesEndAtTheLimitOrASwitchOff : Obligations.PassesEndAtTheLimitOrASwitchOff := by
  intro s g a t hat active pass ended endsBoth
  refine ⟨fun m c o hf hc => ?_, fun hp => ?_⟩
  · have final := exec_of_final hat hc
    obtain ⟨entry, -, -, -⟩ := State.concludes_same hc
    have measured : s.CountsTo m g pass := by
      obtain ⟨f, rfl⟩ := State.concludes_line hc
      exact (State.CountsTo.refl s g).updLine f
    have begun : s.CountsTo (m.clearAttempt g) g pass := measured.updLine _
    have both {v : State} {counts : PassRecord} (k : s.CountsTo v g counts) (hv : exec c s = .next (v.contestEnded g))
        (same : counts.contests = pass.contests) : endsBoth c counts := by
      obtain ⟨off, limit⟩ := k.contestEnded active
      exact ⟨fun hoff => ⟨_, hv, off hoff⟩, fun on full => ⟨_, hv, limit on (by rw [same]; exact full)⟩⟩
    have counted {v : State} (k : s.CountsTo v g pass) {f : PassRecord → PassRecord}
        (hv : exec c s = .next ((v.updPass g f).endContest g)) (same : (f pass).contests = pass.contests)
        (act : (f pass).active = pass.active) (att : (f pass).attached = pass.attached) : endsBoth c (f pass) := by
      rw [State.endContest_eq] at hv
      have moved : s.CountsTo (v.updPass g f) g (f pass) :=
        k.updEngine (fun _ => rfl) (fun _ => rfl) (fun e he => by rw [← he]) act att
      exact both moved hv same
    refine ⟨fun h x sg adr hw off => ?_, ?_, fun kind w cls adr k hw ho => ?_⟩
    · rw [State.finalOutcome, hw] at final
      refine ⟨_, final, ?_⟩
      dsimp only
      rw [State.endActivity_eq]
      exact (begun.directoryOnly (.pollOutcome ..)).ended active off
    · rintro (⟨w, hw⟩ | ⟨kind, w, cls, adr, hw, no⟩) <;> rw [State.finalOutcome, hw] at final <;> rw [hw] <;> dsimp only at final
      · by_cases sent : o = .sent
        · subst sent
          rw [State.parkOutcome, if_pos rfl, State.endContest_eq] at final
          have parked : s.CountsTo ((m.clearAttempt g).updEngine g fun e =>
              { e with parked := min (e.parked + 1) 255, pass := { e.pass with parked := e.pass.parked + 1 } }) g
              { pass with parked := pass.parked + 1 } :=
            begun.updEngine (fun _ => rfl) (fun _ => rfl) (fun e he => by rw [← he]) rfl rfl
          exact both parked final rfl
        · rw [State.parkOutcome, if_neg sent] at final
          have := counted begun final rfl rfl rfl
          cases o with
          | sent => exact absurd rfl sent
          | accept | refuse | noReply | framing | collision | contention | stuck => exact this
      · have fails : (m.clearAttempt g).assignOutcome g a kind w cls adr o = (m.clearAttempt g).assignFailed g kind adr := by
          cases o with
          | accept d => exact absurd rfl (no d)
          | sent | refuse | noReply | framing | collision | contention | stuck => rfl
        rw [fails] at final
        cases kind with
        | newJoin | transfer => exact counted (begun.directoryOnly (.setMap ..)) final rfl rfl rfl
        | rejoin h => exact counted begun final rfl rfl rfl
    · have accepts : o.accepts w = true := (LineOutcome.accepts_iff hc (by rw [hf, hw]; rfl) w).2 ⟨k, ho⟩
      rw [State.finalOutcome, hw] at final
      dsimp only at final
      have chosen := final.trans (congrArg Host.Outcome.next (if_pos accepts))
      have nentry (k : Handle) : (m.clearAttempt g).entry k = s.entry k := (State.updLine_entry ..).trans (entry k)
      refine ⟨fun hk => ?_, fun h hk id seg addr held calm => ?_⟩
      · have fresh : exec c s = .next ((m.clearAttempt g).freshDecision g a w cls adr) := by
          rcases hk with rfl | rfl <;> exact chosen
        refine ⟨fun un free => ?_, fun h id there st only => ?_⟩
        · have unheld : (m.clearAttempt g).holder w = none := State.holder_of_unheld fun k => by rw [nentry]; exact un k
          obtain ⟨h, lowest⟩ := State.lowestFree_isSome (s := m.clearAttempt g) (by simpa only [nentry] using free)
          rw [State.freshDecision, unheld] at fresh
          dsimp only at fresh
          rw [lowest] at fresh
          exact counted (((begun.directoryOnly (.setMap ..)).directoryOnly (.change ..)).directoryOnly (.raise ..)) fresh rfl rfl rfl
        · have held : (s.entry h).state ≠ .free := by rcases st with st | st <;> rw [st] <;> simp
          have holds : (m.clearAttempt g).holder w = some h := State.holder_of_unique (by rwa [nentry]) (by rwa [nentry])
            fun k => by rw [nentry]; exact only k
          obtain ⟨moves, -⟩ := State.freshDecision_held (g := g) (a := a) (c := cls) (adr := adr) holds
          rw [moves (by rwa [nentry]) (by rwa [nentry])] at fresh
          exact counted ((((begun.directoryOnly (.setMap ..)).directoryOnly (.setMap ..)).directoryOnly (.change ..)).directoryOnly
            (.raise ..)) fresh rfl rfl rfl
      · subst hk
        have stands : exec c s = .next ((m.clearAttempt g).applyRejoin g h w cls adr) := chosen
        have written (e : Entry) : s.CountsTo ((m.change h e).updPass g fun x => { x with rejoined := x.rejoined + 1 }) g
            { pass with rejoined := pass.rejoined + 1 } :=
          (measured.directoryOnly (.change ..)).updEngine (fun _ => rfl) (fun _ => rfl) (fun e he => by rw [← he]) rfl rfl
        have still : (m.entry h).identity = w ∧ (m.entry h).segment = g ∧ (m.entry h).address = adr ∧ (m.entry h).state ≠ .free ∧
            (m.entry h).state ≠ .conflict := by rw [entry]; exact ⟨id, seg, addr, held, calm⟩
        by_cases hand : (m.entry h).inHand
        · rw [State.applyRejoin_stands still (.inl ⟨hand, rfl⟩)] at stands
          exact both (written _) stands rfl
        · rw [State.applyRejoin_stands still (.inr ⟨hand, rfl⟩)] at stands
          exact both (written _) stands rfl
  · intro counts
    have loses := (contestOutcomesFollowTheSlots s g a t hat).1 hp
    have lost : s.CountsTo (s.updEngine g fun e =>
        { e with line := e.line, pass := { e.pass with contests := e.pass.contests + 1, lost := e.pass.lost + 1 } }) g counts :=
      (State.CountsTo.refl s g).updEngine (fun _ => rfl) (fun _ => rfl) (fun e he => by rw [he]) rfl rfl
    obtain ⟨off, limit⟩ := lost.contestEnded active
    exact ⟨fun hoff => ⟨_, loses, off hoff⟩, fun on full => ⟨_, loses, limit on (Nat.succ_le_succ full)⟩⟩

end Sys2Proof.Machine
end

section
/-! PROOFS. The checks of a line request anew, entering a queue, and the intake arbiter (R36, R77, R78, R146, R154). -/

namespace Sys2Proof.Machine

/-! ### The checks of a line request and what they rest on -/

/-- The handle byte of a handle is its own. -/
theorem handleOf_eq_some {b : Byte} {h : Handle} (hb : handleOf b = some h) : b = byte h.val := by
  unfold handleOf at hb
  split at hb
  · cases hb
    exact BitVec.eq_of_toNat_eq (by simp [byte])
  · cases hb

theorem byte_handle_inj {h k : Handle} (same : byte h.val = byte k.val) : h = k := by
  have := congrArg handleOf same
  simpa using this

/-- The entry that passes the checks 1, 2, 3 and 5 is the one named, and holds a node. -/
theorem State.commonUnclaimed_named {s : State} {p : PortId} {b x : Byte} {h : Handle} (ok : s.commonUnclaimed p b x = .ok h) :
    handleOf b = some h ∧ (s.entry h).state ≠ .free := by
  obtain ⟨k, hk, ok⟩ := Except.bind_eq_ok ok
  obtain ⟨_, _, ok⟩ := Except.bind_eq_ok ok
  cases ok
  exact State.commonToPermit_ok hk

/-- The handle that a line request names. -/
def LineReq.named (q : LineReq) : Option Handle := q.handle?.bind handleOf

/-- A line request that passes its checks names no entry, or one that holds a node on its segment (R36). -/
theorem State.checkLine_named {s : State} {p : PortId} {q : LineReq} {g : Seg} (ok : s.checkLine p q = .ok g) :
    (q.handle? = none) ∨ ∃ h, q.named = some h ∧ (s.entry h).state ≠ .free ∧ (s.entry h).segment = g := by
  cases q with
  | broadcast | discover => exact .inl rfl
  | nodeRead b x item len =>
    obtain ⟨h, hh, ok⟩ := Except.bind_eq_ok ok
    obtain ⟨_, _, ok⟩ := Except.bind_eq_ok ok
    cases ok
    obtain ⟨hb, held⟩ := State.commonUnclaimed_named hh
    exact .inr ⟨h, hb, held, rfl⟩
  | nodeWrite b x item d =>
    obtain ⟨h, hh, ok⟩ := Except.bind_eq_ok ok
    obtain ⟨_, _, ok⟩ := Except.bind_eq_ok ok
    cases ok
    obtain ⟨hb, held⟩ := State.commonAll_named hh
    exact .inr ⟨h, hb, held, rfl⟩
  | move b t x =>
    obtain ⟨h, hb, present, here, -⟩ := State.checkLine_move ok
    exact .inr ⟨h, hb, by simp [present], here⟩
  | retire b f x =>
    obtain ⟨h, hb, here, prior, hp⟩ := State.checkLine_retire ok
    exact .inr ⟨h, hb, by rw [hp]; exact priorState_ne_free _, here⟩

/-- The checks of a line request read no port. -/
theorem State.checkLine_congr {s t : State} (runs : t.seeding = s.seeding) (entry : ∀ h, t.entry h = s.entry h)
    (engine : ∀ g, t.engine g = s.engine g) (setup : ∀ g, t.segSetup g = s.segSetup g)
    (maps : ∀ g b, t.mapSlot g b = s.mapSlot g b) (p : PortId) (q : LineReq) : t.checkLine p q = s.checkLine p q := by
  have permits (q : PortId) (g : Seg) : t.permits q g = s.permits q g := by cases q <;> simp only [State.permits, setup]
  cases q
  all_goals
    simp only [State.checkLine, State.commonUnclaimed, State.commonAll, State.commonToPermit, State.checkNode, State.checkPermit,
      State.checkClaim, State.checkGeneration, State.laterChecks, State.segmentCondition, State.moveTarget, State.refuse,
      State.inPool, runs, entry, engine, setup, maps, permits] <;> rfl

theorem State.checkLine_setPort (s : State) (p : PortId) (x : PortState) (q : PortId) (r : LineReq) :
    (s.setPort p x).checkLine q r = s.checkLine q r :=
  State.checkLine_congr (by simp) (by simp) (by simp) (by simp) (by simp) q r

/-- A request that passes its checks at its dispatch passes them as they are taken anew (R78, R87). -/
theorem State.checkLine_atAdmission {s : State} {p : PortId} {q : LineReq} {g : Seg} (ok : s.checkLine p q = .ok g) :
    s.checkLine p q.atAdmission = .ok g := by
  cases q with
  | nodeRead b x item len =>
    obtain ⟨h, hh, ok⟩ := Except.bind_eq_ok ok
    obtain ⟨k, hk, later⟩ := Except.bind_eq_ok hh
    obtain ⟨_, _, later⟩ := Except.bind_eq_ok later
    cases later
    rw [LineReq.atAdmission, State.checkLine, State.commonUnclaimed, hk]
    exact ok
  | nodeWrite | broadcast | discover | move | retire => exact ok

theorem checkedAnew_eq (q : LineReq) : checkedAnew q = q.atAdmission := by cases q <;> rfl

/-! ### Entering a queue -/

/-- The entry changes of an admission touch only the directory. -/
theorem State.DirectoryOnly.admissionChange (s : State) (g : Seg) (q : LineReq) : s.DirectoryOnly (s.admissionChange g q) := by
  unfold State.admissionChange
  cases q with
  | move b t x =>
    dsimp only
    split
    · exact (State.DirectoryOnly.setMap ..).trans (.change ..)
    · exact .refl s
  | retire b f x =>
    dsimp only
    split
    · split
      · exact (State.DirectoryOnly.dropResolution ..).trans (.change ..)
      · exact .refl s
    · exact .refl s
  | nodeRead | nodeWrite | broadcast | discover => exact .refl s

/-- A WAITING head that enters a queue (R77, R78, R169), before the entry changes of its kind. -/
theorem State.enterQueue_eq {s : State} {p : PortId} {i : SlotIx} {r : Request} {rest : List SlotIx} (hw : (s.port p).waiting = i :: rest)
    (hi : i ∉ rest) (hs : s.slot p i = .waiting r) (g : Seg) (q : LineReq) :
    s.enterQueue p i g q = (s.admitted p i r rest g (s.queueItem p i g q)).admissionChange g q := by
  have hs' : (s.port p).slots[i] = .waiting r := hs
  have others : (i :: rest).filter (· != i) = rest := by
    rw [List.filter_cons_of_neg (by simp)]
    exact List.filter_eq_self.2 fun j hj => by simpa using fun e : j = i => hi (e ▸ hj)
  have head : (s.port p).dispatchHead i =
      { s.port p with slots := (s.port p).slots.set i (.dispatched r), waiting := rest, waitsFor := none } := by
    rw [PortState.dispatchHead, hs', hw, others]
    rfl
  rw [State.enterQueue, State.updPort_eq, State.updEngine_port, head]
  rfl

/-- What a request waits for makes no difference once it has entered. -/
theorem State.admitted_waitsFor (s : State) (p : PortId) (i : SlotIx) (r : Request) (rest : List SlotIx) (g : Seg) (x : QueueItem)
    (w : Option Seg) : (s.setPort p { s.port p with waitsFor := w }).admitted p i r rest g x = s.admitted p i r rest g x := by
  unfold State.admitted
  rw [State.updEngine_setPort, State.setPort_setPort, State.setPort_port_same]

/-- The place of a request that names an entry. -/
theorem State.queueItem_named (s : State) (p : PortId) (i : SlotIx) (g : Seg) {q : LineReq} {h : Handle} (hq : q.named = some h) :
    s.queueItem p i g q =
      { port := p, slot := i, req := q, entry := some h, identity := (s.entry h).identity, segment := (s.entry h).segment } := by
  rw [LineReq.named] at hq
  rw [State.queueItem, hq]

theorem State.queueItem_unnamed (s : State) (p : PortId) (i : SlotIx) (g : Seg) {q : LineReq} (hq : q.handle? = none) :
    s.queueItem p i g q = { port := p, slot := i, req := q, entry := none, identity := 0, segment := g } := by
  rw [State.queueItem, hq]
  rfl

@[simp] theorem State.admitted_entry (s : State) (p : PortId) (i : SlotIx) (r : Request) (rest : List SlotIx) (g : Seg)
    (x : QueueItem) (h : Handle) : (s.admitted p i r rest g x).entry h = s.entry h := by simp [State.admitted]

/-- An admitted MOVE makes its entry MOVING and its target RESERVED (R146). -/
theorem State.admissionChange_move {s : State} {g : Seg} {b t x : Byte} {h : Handle} (hb : handleOf b = some h)
    (present : (s.entry h).state = .present) :
    s.admissionChange g (.move b t x) =
      (s.setMap g t (.reserved h)).moved h { s.entry h with state := .moving .present t } := by
  rw [State.admissionChange, hb]
  exact State.change_of_state _ h _ (by simp [present, stateCode]) (by simp) (by simp)

/-- An admitted RETIRE makes its entry RETIRING, off the resolution list (R154). -/
theorem State.admissionChange_retire {s : State} {g : Seg} {b x : Byte} {f : Bool} {h : Handle} {prior : Prior}
    (hb : handleOf b = some h) (hp : (s.entry h).state = priorState prior) :
    s.admissionChange g (.retire b f x) =
      (s.updEngine g fun y => { y with resolution := y.resolution.filter (· != h) }).moved h
        { s.entry h with state := .retiring prior f } := by
  rw [State.admissionChange, hb]
  dsimp only
  rw [hp, priorOf_priorState]
  refine State.change_of_state _ h _ ?_ (by simp [State.dropResolution_eq]) (by simp [State.dropResolution_eq])
  rw [State.dropResolution_eq, State.updEngine_entry, hp]
  cases prior <;> simp [priorState, stateCode]

/-- A waiting request that is admitted with its checks passing enters as its kind does (R78, R146, R154). -/
theorem State.enterQueue_entersAs {s : State} {p : PortId} {i : SlotIx} {r : Request} {rest : List SlotIx}
    (hw : (s.port p).waiting = i :: rest) (hi : i ∉ rest) (hs : s.slot p i = .waiting r) {g sg : Seg} {q : LineReq}
    (ok : s.checkLine p q.atAdmission = .ok sg)
    (here : ∀ h, q.named = some h → (s.entry h).state ≠ .free → (s.entry h).segment = g) :
    s.entersAs (s.enterQueue p i g q) p i r rest g q := by
  rw [State.enterQueue_eq hw hi hs]
  have sameHandle : q.atAdmission.handle? = q.handle? := by cases q <;> rfl
  have naming := State.checkLine_named ok
  rw [LineReq.named, sameHandle] at naming
  cases q with
  | broadcast | discover => rfl
  | nodeRead b x item len | nodeWrite b x item d =>
    obtain ⟨h, hb, held, -⟩ := naming.resolve_left (by simp [LineReq.handle?])
    refine ⟨h, ⟨handleOf_eq_some hb, here h hb held⟩, ?_⟩
    rw [State.queueItem_named s p i g hb, here h hb held]
    rfl
  | move b t x =>
    obtain ⟨h, hb, present, -, -⟩ := State.checkLine_move ok
    have seg := here h hb (by simp [present])
    refine ⟨h, ⟨handleOf_eq_some hb, seg⟩, ?_⟩
    rw [State.queueItem_named s p i g (q := .move b t x) hb, State.admissionChange_move hb (by rwa [State.admitted_entry]), State.admitted_entry, seg]
  | retire b f x =>
    obtain ⟨h, hb, -, prior, hp⟩ := State.checkLine_retire ok
    have seg := here h hb (by rw [hp]; exact priorState_ne_free _)
    refine ⟨h, prior, ⟨handleOf_eq_some hb, seg⟩, hp, ?_⟩
    rw [State.queueItem_named s p i g (q := .retire b f x) hb, State.admissionChange_retire hb (by rwa [State.admitted_entry]), State.admitted_entry, seg]

/-- The entry of a request that waits for a queue is on the queue's segment (R78). -/
theorem State.waitingFor_segment {s : State} {g : Seg} {p : PortId} {i : SlotIx} {q : LineReq}
    (waits : s.waitingFor g p = some (i, q)) {h : Handle} (hq : q.named = some h) (held : (s.entry h).state ≠ .free) :
    (s.entry h).segment = g := by
  unfold State.waitingFor at waits
  split at waits
  · split at waits
    · rename_i q' _
      obtain ⟨now, same⟩ := Option.ite_none_right_eq_some.1 waits
      cases same
      rw [LineReq.named] at hq
      rw [hq] at now
      simpa [Entry.isFree, held] using now
    · cases waits
  · cases waits

/-! ### The intake arbiter -/

/-- With both ports waiting, the first served enters; or it is refused, and the other one's checks decide (R78). -/
theorem State.arbitrate_both {s : State} {g : Seg} {p : PortId} (first : (s.engine g).firstServed = p) {i j : SlotIx} {q q' : LineReq}
    (hp : s.waitingFor g p = some (i, q)) (ho : s.waitingFor g p.other = some (j, q')) :
    (∀ k, s.checkLine p q.atAdmission = .ok k → s.arbitrate g = s.enterQueue p i g q) ∧
      ∀ a, s.checkLine p q.atAdmission = .error a → s.arbitrate g = ((s.finish p i a).tryEnter p.other j g q').1 := by
  unfold State.arbitrate
  dsimp only
  rw [first, hp, ho]
  dsimp only
  refine ⟨fun k ok => ?_, fun a fails => ?_⟩
  · rw [State.tryEnter_ok s p i g k q ok]; rfl
  · rw [State.tryEnter_error s p i g q a fails]; rfl

/-- Settles O44: the port served first, its checks, then the other port's. -/
theorem intakeArbiterAdmitsByMode : Obligations.IntakeArbiterAdmitsByMode := by
  intro s g live waits
  have acts (place : (s.engine g).queue.length < 8) : exec (.intakeAdmission g) s = .next (s.arbitrate g) :=
    congrArg Host.Outcome.next (if_pos ⟨live, (State.queueHasPlace_iff s g).2 place⟩)
  refine ⟨fun full => congrArg Host.Outcome.next (if_neg fun h => ?_), fun ha hb => congrArg Host.Outcome.next ?_,
    fun place p i r rest q ⟨hp, hs, hw, hi⟩ served => ?_⟩
  · have := (State.queueHasPlace_iff s g).1 h.2
    omega
  · rw [State.arbitrate_none s g ha hb, ite_self]
  have first : s.waitingFor g p.other = none ∨ (s.engine g).firstServed = p := by
    rcases served with none | ⟨mode, last⟩ | ⟨mode, rfl⟩
    · exact .inl none
    · exact .inr (by rw [Engine.firstServed, mode, last]; exact PortId.other_other p)
    · exact .inr (by rw [Engine.firstServed, mode])
  rw [acts place, checkedAnew_eq]
  refine ⟨fun sg ok => ⟨s.enterQueue p i g q, congrArg Host.Outcome.next ?_,
    State.enterQueue_entersAs hw hi hs ok fun h => State.waitingFor_segment hp⟩, fun a fails => ?_⟩
  · cases ho : s.waitingFor g p.other with
    | none => rw [State.arbitrate_one s g p i q hp ho, State.tryEnter_ok s p i g sg q ok]
    | some x =>
      obtain ⟨j, q'⟩ := x
      exact (State.arbitrate_both (first.resolve_left (by simp [ho])) hp ho).1 sg ok
  · intro u
    have answers : s.finish p i a = u := State.finish_replied s p i r a (by rw [hs]; rfl)
    refine ⟨fun ho => ?_, fun j r' rest' q' ⟨ho, hs', hw', hi'⟩ => ?_⟩
    · rw [State.arbitrate_one s g p i q hp ho, State.tryEnter_error s p i g q a fails, answers]
    have second := (State.arbitrate_both (first.resolve_left (by simp [ho])) hp ho).2 a fails
    rw [answers] at second
    have uport : u.port p.other = s.port p.other := State.setPort_port_other ..
    have uslot : u.slot p.other j = .waiting r' := by rw [State.slot, uport]; exact hs'
    have uentry (h : Handle) : u.entry h = s.entry h := State.setPort_entry ..
    simp only [checkedAnew_eq]
    refine ⟨fun sg ok => ⟨u.enterQueue p.other j g q', congrArg Host.Outcome.next ?_,
      State.enterQueue_entersAs (by rw [uport, hw']) hi' uslot ok fun h hq held => ?_⟩, fun b fails' => congrArg Host.Outcome.next ?_⟩
    · rw [second, State.tryEnter_ok u p.other j g sg q' ok]
    · rw [uentry] at held ⊢
      exact State.waitingFor_segment ho hq held
    · rw [second, State.tryEnter_error u p.other j g q' b fails']
      exact State.finish_replied u p.other j r' b (by rw [uslot]; rfl)

end Sys2Proof.Machine
end

section
/-! PROOFS. The dispatch of a line request that passes its checks (R36, R77 to R79, R146, R154, R171). -/

namespace Sys2Proof.Machine

/-! ### The dispatch of a line request that passes -/

/-- The state in which the request at the head of port `p`'s list waits for the queue of segment `g`. -/
def State.awaiting (s : State) (p : PortId) (g : Seg) : State := s.setPort p { s.port p with waitsFor := some g }

/-- A line request that passes its checks: its kind's command dispatches it, its body reads as the request, and its checks find
its segment. -/
theorem State.passes_checks {s : State} {p : PortId} {r : Request} {c : Instr} {g : Seg} {q : LineReq} {e : Option Handle}
    (pass : s.passes p r c g q e) :
    exec c s = .next (s.dispatchLine p r.kind) ∧ bodyLine r.kind r.body = some q ∧ s.checkLine p q = .ok g ∧ q.named = e := by
  obtain ⟨h, x, item, len, hk, hb, h1, h2, ok, free, rfl, rfl, rfl, rfl⟩ |
    ⟨h, x, item, data, hk, hb, h1, h2, ok, free, rfl, rfl, rfl, rfl⟩ |
    ⟨k, item, data, hk, hb, h1, h2, permit, free, rfl, rfl, rfl, rfl⟩ | ⟨k, hk, hb, permit, closed, free, rfl, rfl, rfl, rfl⟩ |
    ⟨h, t, x, hk, hb, h1, h2, ok, free, rfl, rfl, rfl, rfl⟩ | ⟨h, x, force, hk, hb, ok, free, rfl, rfl, rfl, rfl⟩ := pass <;>
    rw [hk, hb] <;> refine ⟨rfl, ?_, ?_, ?_⟩
  · exact bodyLine_nodeRead h1 h2
  · rw [State.checkLine_nodeRead_eq _ _ ok, free]; rfl
  · exact handleOf_byte h
  · exact bodyLine_nodeWrite h1 h2
  · rw [State.checkLine_nodeWrite_eq _ _ ok, free]; rfl
  · exact handleOf_byte h
  · exact bodyLine_broadcast h1 h2
  · simp [State.checkLine, permit, free]
  · rfl
  · exact bodyLine_discover g
  · simp [State.checkLine, permit, closed, free]
  · rfl
  · exact bodyLine_move h1 h2
  · rw [State.checkLine_move_eq _ ok, free]; rfl
  · exact handleOf_byte h
  · rw [bodyLine_retire (by cases force <;> decide)]
    cases force <;> rfl
  · rw [State.checkLine_retire_eq _ ok, free]; rfl
  · exact handleOf_byte h

section
variable {s : State} {p : PortId} {i : SlotIx} {r : Request} {rest : List SlotIx} {g : Seg} {q : LineReq}

/-- A line request that passes its checks waits for its queue, and the arbiter acts when there is a place (R171). -/
theorem State.dispatchLine_passed (hd : s.heads p i r rest) (hb : bodyLine r.kind r.body = some q) (ok : s.checkLine p q = .ok g) :
    s.dispatchLine p r.kind =
      if (s.engine g).queue.length < 8 then (s.awaiting p g).admitDispatched p g else s.awaiting p g := by
  rw [State.dispatchLine, State.dispatch_of_heads hd rfl, hb]
  dsimp only
  rw [ok]
  simp only [State.updPort_eq, State.queueHasPlace_iff]
  rfl

/-- In that state it is the request that waits for the queue. -/
theorem State.awaiting_waitingFor (hd : s.heads p i r rest) (hb : bodyLine r.kind r.body = some q) (ok : s.checkLine p q = .ok g) :
    (s.awaiting p g).waitingFor g p = some (i, q) := by
  obtain ⟨-, hw, -, hs, -⟩ := hd
  have port : (s.awaiting p g).port p = { s.port p with waitsFor := some g } := State.setPort_port_same ..
  have head : (s.awaiting p g).head? p = some (i, r) := by
    have hs' : (s.awaiting p g).slot p i = .waiting r := by rw [State.slot, port]; exact hs
    simp only [State.head?, port, hw, hs']
  have naming := State.checkLine_named ok
  rw [LineReq.named] at naming
  unfold State.waitingFor
  rw [head, port]
  dsimp only
  rw [hb]
  dsimp only
  refine if_pos ?_
  obtain none | ⟨h, hh, held, here⟩ := naming
  · rw [none]; rfl
  · rw [hh]
    dsimp only
    rw [State.awaiting, State.setPort_entry, if_neg (by rw [Entry.isFree_iff]; exact held), here]

theorem State.awaiting_waitingFor_other (s : State) (p : PortId) (g k : Seg) :
    (s.awaiting p k).waitingFor g p.other = s.waitingFor g p.other := by
  have port : (s.awaiting p k).port p.other = s.port p.other := State.setPort_port_other ..
  have entry (h : Handle) : (s.awaiting p k).entry h = s.entry h := State.setPort_entry ..
  simp only [State.waitingFor, State.head?, State.slot, port, entry]

theorem State.awaiting_admitted (s : State) (p : PortId) (i : SlotIx) (r : Request) (rest : List SlotIx) (g k : Seg) (x : QueueItem) :
    (s.awaiting p k).admitted p i r rest g x = s.admitted p i r rest g x := State.admitted_waitsFor ..

/-- With a place free and the other port not waiting for it, the request enters in its dispatch (R77, R78, R171). -/
theorem State.dispatchLine_enters (hd : s.heads p i r rest) (hb : bodyLine r.kind r.body = some q) (ok : s.checkLine p q = .ok g)
    (place : s.placeFor g p) :
    s.dispatchLine p r.kind = (s.admitted p i r rest g (s.queueItem p i g q)).admissionChange g q := by
  obtain ⟨room, alone⟩ := place
  obtain ⟨-, hw, hi, hs, -⟩ := id hd
  have port : (s.awaiting p g).port p = { s.port p with waitsFor := some g } := State.setPort_port_same ..
  have entry (h : Handle) : (s.awaiting p g).entry h = s.entry h := State.setPort_entry ..
  have ok' : (s.awaiting p g).checkLine p q.atAdmission = .ok g :=
    (State.checkLine_setPort ..).trans (State.checkLine_atAdmission ok)
  have item : (s.awaiting p g).queueItem p i g q = s.queueItem p i g q := by simp only [State.queueItem, entry]
  rw [State.dispatchLine_passed hd hb ok, if_pos room,
    State.admitDispatched_one (State.awaiting_waitingFor hd hb ok) ((State.awaiting_waitingFor_other ..).trans alone) ok',
    State.enterQueue_eq (by rw [port, hw]) hi (by rw [State.slot, port]; exact hs), State.awaiting_admitted, item]

end

/-- Settles O43: the change of a MOVE's and of a RETIRE's admission. -/
theorem moveAndRetireAdmissionsMarkTheEntry : Obligations.MoveAndRetireAdmissionsMarkTheEntry := by
  intro s p i r rest h x hd ok place e item
  refine ⟨fun t hk hb h1 h2 free => ?_, fun f prior hk hb hf hp free => ?_⟩
  · have present : e.state = .present := by
      have := State.checkLine_move (s := s) (p := p) (b := byte h.val) (t := t) (x := x) (g := e.segment)
        (by rw [State.checkLine_move_eq _ ok, free]; rfl)
      obtain ⟨k, hh, present, -⟩ := this
      rw [handleOf_byte] at hh
      cases hh
      exact present
    have enters := State.dispatchLine_enters (q := .move (byte h.val) t x) hd (by rw [hk, hb]; exact bodyLine_move h1 h2)
      (by rw [State.checkLine_move_eq _ ok, free]; rfl) place
    rw [hk] at enters
    refine congrArg Host.Outcome.next (enters.trans ?_)
    rw [State.admissionChange_move (handleOf_byte h) (by rwa [State.admitted_entry]), State.admitted_entry,
      State.queueItem_named s p i _ (q := .move (byte h.val) t x) (handleOf_byte h)]
  · have enters := State.dispatchLine_enters (q := .retire (byte h.val) (f == 1) x) hd
      (by rw [hk, hb]; exact bodyLine_retire (by rcases hf with rfl | rfl <;> decide))
      (by rw [State.checkLine_retire_eq _ ok, free]; rfl) place
    rw [hk] at enters
    refine congrArg Host.Outcome.next (enters.trans ?_)
    rw [State.admissionChange_retire (handleOf_byte h) (by rwa [State.admitted_entry]), State.admitted_entry,
      State.queueItem_named s p i _ (q := .retire (byte h.val) (f == 1) x) (handleOf_byte h)]

/-! ### A dispatch beside the other port's waiting request -/

/-- A computation of checks whose every failure answers something else than OK. -/
def Refuses {α : Type} (x : Except Answer α) : Prop := ∀ a, x = .error a → a.status ≠ .ok

theorem Refuses.ok {α : Type} (v : α) : Refuses (.ok v) := fun _ h => by cases h

theorem Refuses.error {α : Type} {a : Answer} (h : a.status ≠ .ok) : Refuses (.error a : Except Answer α) := fun _ e => by
  cases e; exact h

theorem Refuses.bind {α β : Type} {x : Except Answer α} {f : α → Except Answer β} (hx : Refuses x) (hf : ∀ v, Refuses (f v)) :
    Refuses (x >>= f) := by
  cases x with
  | error e => exact .error (hx e rfl)
  | ok v => exact hf v

theorem Refuses.ite {α : Type} {c : Prop} [Decidable c] {x y : Except Answer α} (hx : Refuses x) (hy : Refuses y) :
    Refuses (if c then x else y) := by split <;> assumption

section
variable (s : State) (p : PortId)

theorem State.checkNode_refuses (b : Byte) : Refuses (s.checkNode b) := by
  unfold State.checkNode
  split
  · exact .error (by simp [Answer.bare])
  · exact .ite (.error (by simp [State.refuse, Answer.bare])) (.ok _)

theorem State.commonToPermit_refuses (b : Byte) : Refuses (s.commonToPermit p b) :=
  (s.checkNode_refuses b).bind fun _ => .bind (.ite (.ok _) (.error (by simp [State.refuse, Answer.bare]))) fun _ => .ok _

theorem State.checkGeneration_refuses (h : Handle) (x : Byte) : Refuses (s.checkGeneration h x) :=
  .ite (.ok _) (.error (by simp [State.refuse, Answer.bare]))

theorem State.commonUnclaimed_refuses (b x : Byte) : Refuses (s.commonUnclaimed p b x) :=
  (s.commonToPermit_refuses p b).bind fun h => (s.checkGeneration_refuses h x).bind fun _ => .ok _

theorem State.commonAll_refuses (b x : Byte) : Refuses (s.commonAll p b x) :=
  (s.commonToPermit_refuses p b).bind fun h => .bind (.ite (.error (by simp)) (.ok _)) fun _ =>
    (s.checkGeneration_refuses h x).bind fun _ => .ok _

theorem State.segmentCondition_ne_ok (g : Seg) : s.segmentCondition g ≠ some .ok := by
  unfold State.segmentCondition
  split
  · simp
  · split <;> simp

theorem State.moveTarget_ne_ok (g : Seg) (t : Byte) : s.moveTarget g t ≠ some .ok := by
  unfold State.moveTarget
  split
  · simp
  · split <;> simp

theorem State.laterChecks_refuses (h : Handle) {st cond own : Option Status} (h1 : st ≠ some .ok) (h2 : cond ≠ some .ok)
    (h3 : own ≠ some .ok) : Refuses (s.laterChecks h st cond own) := by
  unfold State.laterChecks
  split
  · rename_i c hc
    refine .error fun isOk => ?_
    change c = .ok at isOk
    subst isOk
    cases st <;> cases cond <;> simp_all
  · exact .ok _

/-- No check of a line request answers OK. -/
theorem State.checkLine_refuses (q : LineReq) : Refuses (s.checkLine p q) := by
  cases q with
  | nodeRead b x item len =>
    exact (s.commonUnclaimed_refuses p b x).bind fun h =>
      (s.laterChecks_refuses h (by cases (s.entry h).state <;> simp [transferState]) (s.segmentCondition_ne_ok _) (by simp)).bind
        fun _ => .ok _
  | nodeWrite b x item d =>
    exact (s.commonAll_refuses p b x).bind fun h =>
      (s.laterChecks_refuses h (by cases (s.entry h).state <;> simp [transferState]) (s.segmentCondition_ne_ok _) (by simp)).bind
        fun _ => .ok _
  | move b t x =>
    exact (s.commonAll_refuses p b x).bind fun h =>
      (s.laterChecks_refuses h (by cases (s.entry h).state <;> simp [moveState]) (s.segmentCondition_ne_ok _)
        (s.moveTarget_ne_ok _ t)).bind fun _ => .ok _
  | retire b f x =>
    exact (s.commonAll_refuses p b x).bind fun h =>
      (s.laterChecks_refuses h (by cases (s.entry h).state <;> simp [retireState]) (s.segmentCondition_ne_ok _) (by simp)).bind
        fun _ => .ok _
  | broadcast g item d =>
    unfold State.checkLine
    refine .ite (.error (by simp [Answer.bare])) ?_
    split
    · rename_i c hc
      exact .error fun isOk => s.segmentCondition_ne_ok g (by rw [hc]; exact congrArg some isOk)
    · exact .ok _
  | discover g =>
    unfold State.checkLine
    refine .ite (.error (by simp)) (.ite (.error (by simp)) ?_)
    split
    · rename_i c hc
      exact .error fun isOk => s.segmentCondition_ne_ok g (by rw [hc]; exact congrArg some isOk)
    · exact .ok _

end

/-- In `t` the request that headed port `p`'s list has left it: it is in the queue of segment `g`, or it has failed a check. -/
def State.leftWaiting (t : State) (p : PortId) (i : SlotIx) (r : Request) (rest : List SlotIx) (g : Seg) (q : LineReq) : Prop :=
  (t.port p).waiting = rest ∧ (t.port p).waitsFor = none ∧
    ((t.slot p i = .dispatched r ∧ ∃ x ∈ (t.engine g).queue, x.port = p ∧ x.slot = i ∧ x.req = q ∧ x.entry = q.named) ∨
      ∃ z, t.slot p i = .completed r z ∧ z.status ≠ .ok)

section
variable {t : State} {p : PortId} {i : SlotIx} {r : Request} {rest : List SlotIx} (hw : (t.port p).waiting = i :: rest)
  (hi : i ∉ rest) (hs : t.slot p i = .waiting r) (g : Seg) (q : LineReq)
include hw hi hs

theorem State.leftWaiting_enterQueue : (t.enterQueue p i g q).leftWaiting p i r rest g q := by
  rw [State.enterQueue_eq hw hi hs]
  let u := t.admitted p i r rest g (t.queueItem p i g q)
  have only : u.DirectoryOnly (u.admissionChange g q) := .admissionChange ..
  have port : u.port p = { t.port p with slots := (t.port p).slots.set i (.dispatched r), waiting := rest, waitsFor := none } :=
    State.setPort_port_same ..
  refine ⟨by rw [only.waiting, port], by rw [only.waitsFor, port], .inl ⟨?_, t.queueItem p i g q, ?_, ?_⟩⟩
  · rw [only.slot, State.slot, port]
    simp
  · obtain ⟨l, hl⟩ := only.engine g
    rw [hl]
    simp [u, State.admitted]
  · unfold State.queueItem LineReq.named
    cases q.handle?.bind handleOf <;> exact ⟨rfl, rfl, rfl, rfl⟩

/-- A request that waits meets a free place: it enters, or fails a check. -/
theorem State.leftWaiting_tryEnter : (t.tryEnter p i g q).1.leftWaiting p i r rest g q := by
  cases hc : t.checkLine p q.atAdmission with
  | ok k =>
    rw [State.tryEnter_ok t p i g k q hc]
    exact State.leftWaiting_enterQueue hw hi hs g q
  | error a =>
    rw [State.tryEnter_error t p i g q a hc]
    dsimp only
    rw [State.finish_head t a hw hi hs]
    refine ⟨by simp [State.answered, PortState.answered], by simp [State.answered, PortState.answered], 
      .inr ⟨r.reply a.status a.generation a.body, ?_, ?_⟩⟩
    · simp [State.answered, State.slot, PortState.answered]
    · exact t.checkLine_refuses p _ a hc

end

/-- The admission of one port's request leaves the other port's lists and slots, and takes one place. -/
theorem State.enterQueue_other (t : State) (p : PortId) (i : SlotIx) (g : Seg) (q : LineReq) :
    ((t.enterQueue p i g q).port p.other).waiting = (t.port p.other).waiting ∧
      ((t.enterQueue p i g q).port p.other).waitsFor = (t.port p.other).waitsFor ∧
      (∀ j, (t.enterQueue p i g q).slot p.other j = t.slot p.other j) ∧
      ((t.enterQueue p i g q).engine g).queue = (t.engine g).queue ++ [t.queueItem p i g q] := by
  have only := State.DirectoryOnly.admissionChange
    ((t.updEngine g fun e => { e with queue := e.queue ++ [t.queueItem p i g q], lastServed := p }).updPort p (·.dispatchHead i)) g q
  obtain ⟨l, hl⟩ := only.engine g
  refine ⟨(only.waiting _).trans ?_, (only.waitsFor _).trans ?_, fun j => (only.slot _ j).trans ?_,
    (congrArg Engine.queue hl).trans ?_⟩ <;>
    simp [State.slot]

/-- An entry that a passed request's admission changes keeps its segment and stays in use. -/
theorem State.enterQueue_entry {t : State} {p : PortId} {q : LineReq} {g k : Seg} (ok : t.checkLine p q.atAdmission = .ok k)
    (i : SlotIx) (h : Handle) :
    ((t.enterQueue p i g q).entry h).segment = (t.entry h).segment ∧
      (((t.enterQueue p i g q).entry h).isFree = (t.entry h).isFree) := by
  have changed {u : State} {h' : Handle} {e : Entry} (entry : u.entry h = t.entry h) (seg : e.segment = (t.entry h').segment)
      (held : (t.entry h').state ≠ .free) (held' : e.state ≠ .free) :
      ((u.change h' e).entry h).segment = (t.entry h).segment ∧ ((u.change h' e).entry h).isFree = (t.entry h).isFree := by
    rw [State.change_entry]
    split
    · rename_i same
      subst same
      exact ⟨seg, by simp [Entry.isFree, held, held']⟩
    · exact ⟨by rw [entry], by rw [entry]⟩
  unfold State.enterQueue State.admissionChange
  cases q with
  | move b target x =>
    obtain ⟨h', hb, present, -, -⟩ := State.checkLine_move ok
    simp only [hb]
    exact changed (by simp) (by simp) (by simp [present]) (by simp)
  | retire b f x =>
    obtain ⟨h', hb, -, prior, hp⟩ := State.checkLine_retire ok
    simp only [hb, State.updPort_eq, State.setPort_entry, State.updEngine_entry, hp, priorOf_priorState]
    exact changed (by simp [State.dropResolution_eq]) (by simp)
      (by rw [hp]; exact priorState_ne_free _) (by simp)
  | nodeRead | nodeWrite | broadcast | discover => simp

/-- Whether a request waits for a queue depends on its port's list and on its entry's segment (R78). -/
theorem State.waitingFor_congr {s t : State} {p : PortId} (waiting : (t.port p).waiting = (s.port p).waiting)
    (waitsFor : (t.port p).waitsFor = (s.port p).waitsFor) (slot : ∀ j, t.slot p j = s.slot p j)
    (entry : ∀ h, (t.entry h).segment = (s.entry h).segment ∧ (t.entry h).isFree = (s.entry h).isFree) (g : Seg) :
    t.waitingFor g p = s.waitingFor g p := by
  have seg (h : Handle) := (entry h).1
  have free (h : Handle) := (entry h).2
  simp only [State.waitingFor, State.head?, waiting, waitsFor, slot, seg, free]

/-- With two places free, a request that passed its checks leaves its port's WAITING list in its dispatch, whichever port the
mode serves first (R78, R171). -/
theorem State.leftWaiting_admitDispatched {t : State} {p : PortId} {i : SlotIx} {r : Request} {rest : List SlotIx} {g k : Seg}
    {q : LineReq} (hw : (t.port p).waiting = i :: rest) (hi : i ∉ rest) (hs : t.slot p i = .waiting r)
    (waits : t.waitingFor g p = some (i, q)) (ok : t.checkLine p q.atAdmission = .ok k) (room : (t.engine g).queue.length ≤ 6) :
    (t.admitDispatched p g).leftWaiting p i r rest g q := by
  have once (left : (t.arbitrate g).leftWaiting p i r rest g q) : (t.admitDispatched p g).leftWaiting p i r rest g q := by
    rwa [State.admitDispatched_served (State.waitingFor_none g left.2.1)]
  cases ho : t.waitingFor g p.other with
  | none =>
    refine once ?_
    rw [State.arbitrate_one t g p i q waits ho]
    exact State.leftWaiting_tryEnter hw hi hs g q
  | some w =>
    obtain ⟨j, q'⟩ := w
    by_cases first : (t.engine g).firstServed = p
    · refine once ?_
      rw [(State.arbitrate_both first waits ho).1 k ok]
      exact State.leftWaiting_enterQueue hw hi hs g q
    · have second : (t.engine g).firstServed = p.other := by
        cases p <;> cases hf : (t.engine g).firstServed <;> simp_all [PortId.other]
      have both := State.arbitrate_both (q' := q) (j := i) second ho (by rwa [PortId.other_other])
      rw [PortId.other_other] at both
      cases hc : t.checkLine p.other q'.atAdmission with
      | error a =>
        refine once ?_
        rw [both.2 a hc]
        have port : (t.finish p.other j a).port p = t.port p := by
          have := State.finish_port_other t p.other j a
          rwa [PortId.other_other] at this
        exact State.leftWaiting_tryEnter (by rw [port, hw]) hi (by rw [State.slot, port]; exact hs) g q
      | ok k' =>
        obtain ⟨waiting, waitsFor, slot, queue⟩ := State.enterQueue_other t p.other j g q'
        rw [PortId.other_other] at waiting waitsFor slot
        have still : (t.enterQueue p.other j g q').waitingFor g p = some (i, q) :=
          (State.waitingFor_congr waiting waitsFor slot (State.enterQueue_entry hc j) g).trans waits
        have place : (t.enterQueue p.other j g q').queueHasPlace g = true := by
          rw [State.queueHasPlace_iff, queue, List.length_append, List.length_singleton]
          omega
        rw [State.admitDispatched, both.1 k' hc, if_pos ⟨by rw [still]; rfl, place⟩,
          State.arbitrate_one _ g p i q still (State.enterQueue_waitingFor ..)]
        exact State.leftWaiting_tryEnter (by rw [waiting, hw]) hi (by rw [slot, hs]) g q

/-- The kind of the request that a body reads as. -/
def LineReq.kind : LineReq → ReqKind
  | .nodeRead _ _ _ _ => .nodeRead | .nodeWrite _ _ _ _ => .nodeWrite | .broadcast _ _ _ => .broadcast
  | .discover _ => .discover | .move _ _ _ => .move | .retire _ _ _ => .retire

theorem bodyLine_kind {k : ReqKind} {body : List Byte} {q : LineReq} (h : bodyLine k body = some q) : k = q.kind := by
  unfold bodyLine at h
  split at h <;> simp at h
  · rw [← h.2]; rfl
  · rw [← h.2]; rfl
  · obtain ⟨-, g, -, rfl⟩ := h; rfl
  · obtain ⟨g, -, rfl⟩ := h; rfl
  · rw [← h.2]; rfl
  · obtain ⟨-, rfl⟩ | ⟨-, rfl⟩ := h <;> rfl

/-- Settles O41: the queue with a place, the full queue, and the queue with two. -/
theorem lineRequestEntersTheQueue : Obligations.LineRequestEntersTheQueue := by
  intro s p i r rest c g q e hd pass
  obtain ⟨runs, hb, ok, named⟩ := State.passes_checks pass
  rw [runs]
  refine ⟨fun place n1 n2 => congrArg Host.Outcome.next ?_, fun full => congrArg Host.Outcome.next ?_,
    fun room => ⟨_, rfl, ?_⟩⟩
  · rw [State.dispatchLine_enters hd hb ok place]
    have naming := State.checkLine_named ok
    have unchanged (t : State) : t.admissionChange g q = t := by
      cases q with
      | move b t x => exact absurd (bodyLine_kind hb) n1
      | retire b f x => exact absurd (bodyLine_kind hb) n2
      | nodeRead | nodeWrite | broadcast | discover => rfl
    rw [unchanged]
    obtain unnamed | ⟨h, hq, -, here⟩ := naming
    · have : e = none := by rw [← named, LineReq.named, unnamed]; rfl
      rw [State.queueItem_unnamed s p i g unnamed, this]
      rfl
    · have : e = some h := by rw [← named, hq]
      rw [State.queueItem_named s p i g hq, this, here]
      rfl
  · rw [State.dispatchLine_passed hd hb ok, if_neg (by omega)]
    rfl
  · rw [State.dispatchLine_passed hd hb ok, if_pos (by omega)]
    obtain ⟨-, hw, hi, hs, -⟩ := id hd
    have port : (s.awaiting p g).port p = { s.port p with waitsFor := some g } := State.setPort_port_same ..
    have left := State.leftWaiting_admitDispatched (t := s.awaiting p g) (by rw [port, hw]) hi
      (by rw [State.slot, port]; exact hs) (State.awaiting_waitingFor hd hb ok)
      ((State.checkLine_setPort ..).trans (State.checkLine_atAdmission ok)) (by rw [State.awaiting, State.setPort_engine]; exact room)
    rw [State.leftWaiting, named] at left
    exact left

end Sys2Proof.Machine
end

section
/-! PROOFS. The items of a pick (R80, R83, R124, R141). -/

namespace Sys2Proof.Machine

/-! ### The readied state -/

theorem State.answerAll_seeding (s : State) (a : Answer) (l : List (PortId × SlotIx)) : (s.answerAll a l).seeding = s.seeding := by
  induction l generalizing s with
  | nil => rfl
  | cons x l ih => obtain ⟨p, i⟩ := x; rw [State.answerAll, ih, State.finish_seeding]

@[simp] theorem State.passOver_seeding (s : State) (g : Seg) (st : Status) (reason : Byte) :
    (s.passOver g st reason).seeding = s.seeding := by
  unfold State.passOver
  dsimp only
  split
  · rw [← State.answerAll_eq, State.answerAll_seeding, State.updEngine_seeding]
  · rfl

theorem State.passOver_inactive {s : State} {g : Seg} (over' : (s.engine g).pass.active = false) (st : Status) (reason : Byte) :
    s.passOver g st reason = s := if_neg (by rw [over']; simp)

section
variable (s : State) (g : Seg)

theorem State.readied_run (run : s.runState = .run) : s.readied g = s := if_pos run

@[simp] theorem State.readied_entry (h : Handle) : (s.readied g).entry h = s.entry h := by
  unfold State.readied
  split
  · rfl
  · simp [State.entry]

@[simp] theorem State.readied_seeding : (s.readied g).seeding = s.seeding := by
  unfold State.readied
  split
  · rfl
  · rw [State.passOver_seeding]

theorem State.readied_engine_ne {k : Seg} (n : k ≠ g) : (s.readied g).engine k = s.engine k := by
  unfold State.readied
  split
  · rfl
  · rw [State.passOver_engine, if_neg fun h => n h.1]

/-- Before a pick takes its work, nothing of the engine but its pass changes. -/
theorem State.readied_engine : (s.readied g).engine g = { s.engine g with pass := ((s.readied g).engine g).pass } := by
  unfold State.readied
  split
  · rfl
  · rw [State.passOver_engine]
    split <;> rfl

/-- Out of RUN no pass is active any more. -/
theorem State.readied_pass (quiet : s.runState ≠ .run) : ((s.readied g).engine g).pass.active = false := by
  rw [State.readied, if_neg quiet, State.passOver_engine]
  split
  · rfl
  · rename_i over'
    simpa using over'

end

/-- The pick of an IDLE engine that is on. -/
theorem exec_pick {s : State} {g : Seg} (live : s.runState.isStarting = false) (idle : (s.engine g).state = .idle)
    (on : (s.engine g).settings.on = true) : exec (.pick g) s = .next (s.pickWork g) :=
  congrArg Host.Outcome.next (if_pos ⟨live, idle, on⟩)

/-- With no resolution to take and no poll due, the pick goes on at item 3 (R80). -/
theorem State.pickWork_rest {s : State} {g : Seg} (free : (s.engine g).resolution = [] ∨ s.seeding = true)
    (calm : (s.engine g).pollDue = false) : s.pickWork g = (s.readied g).pickRest g := by
  have rest : (s.readied g).pickPoll g = (s.readied g).pickRest g := if_neg (by rw [State.readied_engine, calm]; simp)
  rw [State.pickWork_eq, State.readied_engine s g, State.readied_seeding, rest]
  obtain none | open' := free
  · rw [none]
  · rw [open']
    split <;> rfl

/-- The head of the resolution list while the window is closed (R141). -/
theorem State.pickWork_resolution {s : State} {g : Seg} {h : Handle} {more : List Handle} (list : (s.engine g).resolution = h :: more)
    (closed : s.seeding = false) :
    s.pickWork g = ((s.readied g).record g false).carrying g .transaction
      (.resolveRelease h (s.entry h).address (s.entry h).identity) none := by
  rw [State.pickWork_eq, State.readied_engine s g, State.readied_seeding, list, closed]
  dsimp only
  rw [if_neg (by simp), State.beginResolution, State.begin_eq]
  have entry : ((s.readied g).record g false).entry h = s.entry h := (State.updEngine_entry ..).trans (State.readied_entry ..)
  rw [entry]

/-! ### The queue head -/

/-- The request at the head of the queue goes on the line (R83). -/
theorem State.takeHead_eq {u : State} {g : Seg} {q : QueueItem} {more : List QueueItem} {r : Request}
    (queue : (u.engine g).queue = q :: more) (slot : u.slot q.port q.slot = .dispatched r) :
    u.takeHead g q = (u.updEngine g fun x => { x with queue := more }).updPort q.port fun y =>
      { y with slots := y.slots.set q.slot (.onLine r) } := by
  have slot' : (u.port q.port).slots[q.slot] = .dispatched r := slot
  unfold State.takeHead
  rw [State.updEngine_congr (f := fun e => { e with queue := e.queue.tail }) (k := fun x => { x with queue := more }) (by rw [queue]; rfl)]
  simp only [State.updPort_eq, State.updEngine_port, PortState.goOnLine, slot', Slot.request?]

/-- A request of one of the four kinds that name an entry. -/
def LineReq.naming (x : LineReq) : Prop :=
  (∃ b e item len, x = .nodeRead b e item len) ∨ (∃ b e item d, x = .nodeWrite b e item d) ∨ (∃ b t e, x = .move b t e) ∨
    ∃ b f e, x = .retire b f e

/-- A queued request whose entry is FREE or has changed is answered STALE; any other becomes its activity (R83). -/
theorem State.pickQueue_named {u : State} {g : Seg} {q : QueueItem} {h : Handle} (entry : q.entry = some h)
    (works : q.req.naming) :
    (((u.entry h).state ≠ .free ∧ (u.entry h).identity = q.identity ∧ (u.entry h).segment = q.segment) →
      u.pickQueue g q = ((u.takeHead g q).record g true).carrying g .transaction (q.req.work h (u.entry h))
        (some { port := q.port, slot := some q.slot })) ∧
    (¬ ((u.entry h).state ≠ .free ∧ (u.entry h).identity = q.identity ∧ (u.entry h).segment = q.segment) →
      u.pickQueue g q = (u.takeHead g q).finish q.port q.slot (u.refuse h .stale)) := by
  have picks : u.pickQueue g q =
      if (u.entry h).isFree = true ∨ (u.entry h).identity ≠ q.identity ∨ (u.entry h).segment ≠ q.segment then
        (u.takeHead g q).finish q.port q.slot (u.refuse h .stale)
      else ((u.takeHead g q).record g true).begin g .transaction (q.req.work h (u.entry h))
        (some { port := q.port, slot := some q.slot }) := by
    unfold State.pickQueue
    rw [entry]
    rcases works with ⟨b, x, item, len, hr⟩ | ⟨b, x, item, d, hr⟩ | ⟨b, t, x, hr⟩ | ⟨b, f, x, hr⟩ <;> rw [hr]
  refine ⟨fun same => ?_, fun other => ?_⟩
  · rw [picks, if_neg, State.begin_eq]
    rw [Entry.isFree_iff]
    tauto
  · rw [picks, if_pos]
    rw [Entry.isFree_iff]
    tauto

/-- Item 4 of the pick (R80). -/
theorem State.pickRest_queue {u : State} {g : Seg} {q : QueueItem} {more : List QueueItem} (none : u.contestAvailable g = false)
    (queue : (u.engine g).queue = q :: more) (live : u.runState.isStarting = false) (loud : u.runState ≠ .quiet) :
    u.pickRest g = u.pickQueue g q := by
  unfold State.pickRest
  rw [if_neg (by rw [none]; simp), queue]
  cases hr : u.runState with
  | run | quieting => rfl
  | quiet => exact absurd hr loud
  | starting ph => rw [hr] at live; cases live

/-- A pick that finds nothing (R80). -/
theorem State.pickRest_nothing {u : State} {g : Seg} (none : u.contestAvailable g = false)
    (nothing : (u.engine g).queue = [] ∨ u.runState = .quiet) : u.pickRest g = u.record g false := by
  unfold State.pickRest
  rw [if_neg (by rw [none]; simp)]
  obtain empty | quiet := nothing
  · rw [empty]
  · rw [quiet]
    cases (u.engine g).queue <;> rfl

theorem State.contestAvailable_iff (u : State) (g : Seg) :
    u.contestAvailable g = true ↔
      ((u.engine g).pass.active = true ∨ (u.engine g).discoveryDue = true) ∧ u.runState = .run ∧ u.seeding = false ∧
        ((u.engine g).queue = [] ∨ (u.engine g).tookQueue = true) := by
  simp [State.contestAvailable, and_assoc]

/-- Settles O45: the items of the pick in their order. -/
theorem pickTakesTheFirstAvailableWork : Obligations.PickTakesTheFirstAvailableWork := by
  intro s g live idle on e u record
  have picks := exec_pick live idle on
  have engine : u.engine g = { e with pass := (u.engine g).pass } := State.readied_engine s g
  have runs : u.runState = s.runState := State.readied_runState s g
  have seeds : u.seeding = s.seeding := State.readied_seeding s g
  have entries (h : Handle) : u.entry h = s.entry h := State.readied_entry s g h
  refine ⟨fun h more list closed => ?_, fun free calm => ⟨fun run active closed room => ?_, fun none => ?_⟩⟩
  · rw [picks, State.pickWork_resolution list closed]
    rfl
  · have same : u = s := State.readied_run s g run
    rw [picks, State.pickWork_rest free calm]
    change Host.Outcome.next (u.pickRest g) = _
    have available : u.contestAvailable g = true :=
      (State.contestAvailable_iff u g).2 (by rw [same]; exact ⟨.inl active, run, closed, room⟩)
    rw [State.pickRest, if_pos available, State.pickContest, if_pos (by rw [same]; exact active), State.beginContest,
      State.begin_eq]
    rfl
  · have unavailable : u.contestAvailable g = false := by
      rw [Bool.eq_false_iff, ne_eq, State.contestAvailable_iff, runs, seeds]
      rintro ⟨due, run, closed, room⟩
      have same : u = s := State.readied_run s g run
      rw [same] at due room
      rcases none with other | ⟨inactive, undue⟩ | seeding | ⟨full, took⟩
      · exact other run
      · rcases due with due | due
        · exact absurd due (by rw [inactive]; simp)
        · exact absurd due (by rw [undue]; simp)
      · exact absurd closed (by rw [seeding]; simp)
      · rcases room with room | room
        · exact full room
        · exact absurd room (by rw [took]; simp)
    rw [picks, State.pickWork_rest free calm]
    change (_ → Host.Outcome.next (u.pickRest g) = _) ∧ (_ → ∀ q more r, _ → _ → _)
    refine ⟨fun nothing => ?_, fun loud q more r queue slot => ?_⟩
    · rw [State.pickRest_nothing unavailable (by rw [engine, runs]; exact nothing)]
      rfl
    · intro taken owner
      have queue' : (u.engine g).queue = q :: more := by rw [engine]; exact queue
      have takes : u.takeHead g q = taken := State.takeHead_eq queue' slot
      rw [State.pickRest_queue unavailable queue' (by rw [runs]; exact live) (by rw [runs]; exact loud)]
      refine ⟨fun sg item data hq => ?_, fun h hh => ?_⟩
      · rw [State.pickQueue, hq]
        dsimp only
        rw [takes, State.begin_eq]
        rfl
      · intro a same runs
        have named := State.pickQueue_named (u := u) (g := g) hh
        rw [entries, takes] at named
        have stale : (taken.finish q.port q.slot (u.refuse h .stale)) = taken.replied q.port q.slot r .stale a.generation [] := by
          have held : taken.slot q.port q.slot = .onLine r := by simp [taken, State.slot]
          refine (State.finish_replied taken q.port q.slot r (u.refuse h .stale) (by rw [held]; rfl)).trans ?_
          rw [State.refuse, entries]
          rfl
        have becomes {w : Work} (works : q.req.naming) (hw : q.req.work h a = w) : runs w := by
          obtain ⟨yes, no⟩ := named works
          refine ⟨fun still => ?_, fun gone => ?_⟩
          · rw [yes still, hw]; rfl
          · rw [no gone, stale]
        exact ⟨fun b x item len hr => becomes (.inl ⟨b, x, item, len, hr⟩) (by rw [hr]; rfl),
          fun b x item d hr => becomes (.inr (.inl ⟨b, x, item, d, hr⟩)) (by rw [hr]; rfl),
          fun b t x hr => becomes (.inr (.inr (.inl ⟨b, t, x, hr⟩))) (by rw [hr]; rfl),
          fun b f x hr => becomes (.inr (.inr (.inr ⟨b, f, x, hr⟩))) (by rw [hr]; rfl)⟩

end Sys2Proof.Machine
end

section
/-! PROOFS. DISCOVERs and passes at a pick (R80, R120 to R124, R137, R138). -/

namespace Sys2Proof.Machine

/-! ### DISCOVERs and passes at a pick -/

theorem State.unparks_iff (s : State) (g : Seg) :
    s.unparks g = true ↔ 0 < (s.engine g).parked ∧ ∃ h : Handle, (s.entry h).state = .free := by
  rw [State.unparks, Bool.and_eq_true, decide_eq_true_eq]
  refine and_congr_right fun _ => ⟨fun some => ?_, fun free => ?_⟩
  · obtain ⟨h, hh⟩ := Option.isSome_iff_exists.1 some
    have free : (s.entry h).isFree = true := List.find?_some (p := fun h => (s.entry h).isFree) hh
    exact ⟨h, (Entry.isFree_iff _).1 free⟩
  · obtain ⟨h, hh⟩ := State.lowestFree_isSome free
    rw [hh]
    rfl

@[simp] theorem State.record_engine (s : State) (g : Seg) (took : Bool) :
    (s.record g took).engine g = { s.engine g with tookQueue := took } := State.updEngine_engine_same ..

@[simp] theorem State.record_slot (s : State) (g : Seg) (took : Bool) (p : PortId) (i : SlotIx) :
    (s.record g took).slot p i = s.slot p i := State.updEngine_slot ..

@[simp] theorem State.takeHead_engine (s : State) (g : Seg) (x : QueueItem) :
    (s.takeHead g x).engine g = { s.engine g with queue := (s.engine g).queue.tail } := by simp [State.takeHead]

theorem State.takeHead_slot {s : State} {g : Seg} {x : QueueItem} {r : Request} (slot : s.slot x.port x.slot = .dispatched r) :
    (s.takeHead g x).slot x.port x.slot = .onLine r := by
  have slot' : (s.port x.port).slots[x.slot] = .dispatched r := slot
  have slot'' : (s.port x.port).slots[x.slot.val] = .dispatched r := slot'
  simp [State.takeHead, State.slot, PortState.goOnLine, slot'', Slot.request?]

theorem State.takeHead_slot_ne (s : State) (g : Seg) (x : QueueItem) {p : PortId} {i : SlotIx} (n : (p, i) ≠ (x.port, x.slot)) :
    (s.takeHead g x).slot p i = s.slot p i := by
  by_cases hp : p = x.port
  · subst hp
    have hi : x.slot.val ≠ i.val := fun e => n (by rw [Fin.ext e])
    simp [State.takeHead, State.slot, PortState.goOnLine, hi]
  · simp [State.takeHead, State.slot, State.setPort_port, hp]

/-- In QUIETING a DISCOVER is answered QUIET with counts of 0 (R122). -/
theorem State.pickDiscover_quieting {s : State} {g : Seg} {x : QueueItem} (quieting : s.runState = .quieting) :
    s.pickDiscover g x = ((s.takeHead g x).record g true).finish x.port x.slot
      { status := .ok, generation := 0, body := [3, 0, 0, 0, 0, 0] } := by
  unfold State.pickDiscover
  dsimp only
  rw [if_neg (by rw [quieting]; simp)]
  rfl

/-- In RUN a DISCOVER attaches to the active pass or starts one (R122, R123). -/
theorem State.pickDiscover_run {s : State} {g : Seg} {x : QueueItem} (run : s.runState = .run) :
    ((s.engine g).pass.active = true → s.pickDiscover g x =
      ((s.takeHead g x).record g true).updPass g fun c => { c with attached := c.attached ++ [(x.port, x.slot)] }) ∧
    ((s.engine g).pass.active = false → s.pickDiscover g x =
      let u := ((s.takeHead g x).record g true).startPass g [(x.port, x.slot)]
      if s.unparks g then u.carrying g .transaction .unparkAll none else u) := by
  unfold State.pickDiscover
  dsimp only
  rw [if_pos run]
  refine ⟨fun active => if_pos active, fun inactive => ?_⟩
  rw [if_neg (by rw [inactive]; simp), State.begin_eq]

/-! ### What a pick leaves of a pass that is over -/

/-- A poll scan changes only the directory and the resolution list. -/
theorem State.DirectoryOnly.pollScan (s : State) (g : Seg) (l : List Handle) : s.DirectoryOnly (s.pollScan g l).1 := by
  induction l generalizing s with
  | nil => exact .refl s
  | cons h l ih =>
    unfold State.pollScan
    dsimp only
    split
    · split
      · exact (State.DirectoryOnly.appendResolution ..).trans (ih _)
      case h_2 | h_3 | h_4 =>
        split
        · exact .refl s
        · split
          · exact .setEntry ..
          · exact (State.DirectoryOnly.setEntry ..).trans (ih _)
      all_goals exact ih s
    · exact ih s

/-- `t` has the pass record of `s` in engine `g`, and the slots of `s` but for the one at the head of the queue. -/
def State.passesOn (s t : State) (g : Seg) : Prop :=
  (t.engine g).pass = (s.engine g).pass ∧
    ∀ p i, (∀ x ∈ (s.engine g).queue, (p, i) ≠ (x.port, x.slot)) → t.slot p i = s.slot p i

theorem State.passesOn.trans {s t u : State} {g : Seg} (h : s.passesOn t g) (queue : (t.engine g).queue = (s.engine g).queue)
    (k : t.passesOn u g) : s.passesOn u g :=
  ⟨k.1.trans h.1, fun p i other => (k.2 p i (by rwa [queue])).trans (h.2 p i other)⟩

theorem State.passesOn_updEngine (s : State) (g : Seg) {f : Engine → Engine} (pass : ∀ e, (f e).pass = e.pass) :
    s.passesOn (s.updEngine g f) g :=
  ⟨by rw [State.updEngine_engine_same, pass], fun p i _ => State.updEngine_slot ..⟩

theorem State.passesOn_finish (s : State) (g : Seg) {p : PortId} {i : SlotIx} (a : Answer)
    (queued : ∃ x ∈ (s.engine g).queue, (p, i) = (x.port, x.slot)) : s.passesOn (s.finish p i a) g := by
  obtain ⟨x, hx, hpi⟩ := queued
  exact ⟨by rw [State.finish_engine], fun q j other => State.finish_slot_ne _ _ _ _ _ _ (by rw [hpi]; exact other x hx)⟩

/-- Item 4 of the pick outside RUN touches no slot but the queue head's, and no pass (R80, R83, R122). -/
theorem State.passesOn_pickQueue {s : State} {g : Seg} {x : QueueItem} {more : List QueueItem} (queue : (s.engine g).queue = x :: more)
    (quiet : s.runState ≠ .run) : s.passesOn (s.pickQueue g x) g := by
  have taken (t : State) (pass : (t.engine g).pass = ((s.takeHead g x).engine g).pass)
      (slot : ∀ p i, (p, i) ≠ (x.port, x.slot) → t.slot p i = (s.takeHead g x).slot p i) : s.passesOn t g :=
    ⟨by rw [pass, State.takeHead_engine], fun p i other => by
      have n := other x (by rw [queue]; exact List.mem_cons_self ..)
      rw [slot p i n, State.takeHead_slot_ne _ _ _ n]⟩
  unfold State.pickQueue
  split
  · unfold State.pickDiscover
    dsimp only
    rw [if_neg quiet]
    exact taken _ (by simp) fun p i n => by rw [State.finish_slot_ne _ _ _ _ _ _ n, State.record_slot]
  · exact taken _ (by simp [State.begin]) fun p i _ => by simp [State.begin]
  · dsimp only
    split
    · exact taken _ (by simp) fun p i n => State.finish_slot_ne _ _ _ _ _ _ n
    · exact taken _ (by simp [State.begin]) fun p i _ => by simp [State.begin]
  · exact ⟨rfl, fun _ _ _ => rfl⟩

theorem State.passesOn_pickRest {s : State} {g : Seg} (quiet : s.runState ≠ .run) : s.passesOn (s.pickRest g) g := by
  have none : s.contestAvailable g = false := by
    rw [Bool.eq_false_iff, ne_eq, State.contestAvailable_iff]
    exact fun h => quiet h.2.1
  unfold State.pickRest
  rw [if_neg (by rw [none]; simp)]
  split
  · exact absurd ‹_› quiet
  · exact State.passesOn_pickQueue ‹_› quiet
  all_goals exact State.passesOn_updEngine s g fun _ => rfl

/-- Outside RUN a pick leaves a pass record, and the slots beside its queue head's, as the readied state has them. -/
theorem State.passesOn_pickWork {s : State} {g : Seg} (quiet : s.runState ≠ .run) : (s.readied g).passesOn (s.pickWork g) g := by
  let u := s.readied g
  have runs : u.runState ≠ .run := by rw [State.readied_runState]; exact quiet
  have poll : u.passesOn (u.pickPoll g) g := by
    unfold State.pickPoll
    split
    · have turned : u.passesOn (u.pollTurn g).1 g ∧ ((u.pollTurn g).1.engine g).queue = (u.engine g).queue ∧
          (u.pollTurn g).1.runState ≠ .run := by
        have only := State.DirectoryOnly.pollScan (u.updEngine g fun e => { e with pollDue := false }) g (turnOrder (u.engine g).cursor)
        obtain ⟨l, hl⟩ := only.engine g
        rw [State.updEngine_engine_same] at hl
        have engine : (u.pollTurn g).1.engine g = { u.engine g with pollDue := false, resolution := l } := hl
        refine ⟨⟨by rw [engine], fun p i _ => ?_⟩, by rw [engine], ?_⟩
        · exact (only.slot p i).trans (State.updEngine_slot ..)
        · rw [State.pollTurn_runState]; exact runs
      obtain ⟨turned, queue, still⟩ := turned
      split
      · rename_i t h ht
        rw [ht] at turned queue
        refine turned.trans queue ?_
        exact ⟨by simp [State.beginPoll, State.begin], fun p i _ => by simp [State.beginPoll, State.begin]⟩
      · rename_i t ht
        rw [ht] at turned queue still
        exact turned.trans queue (State.passesOn_pickRest still)
    · exact State.passesOn_pickRest runs
  rw [State.pickWork_eq]
  split
  · split
    · exact poll
    · exact ⟨by simp [State.beginResolution, State.begin], fun p i _ => by simp [State.beginResolution, State.begin]⟩
  · exact poll

/-- A slot that is DISPATCHED in a queue is not one of a pass's attached DISCOVERs. -/
theorem State.slotsAgree.attached_ne_queued {s : State} (h : s.slotsAgree) {g k : Seg} {y : PortId × SlotIx}
    (hy : y ∈ (s.engine g).pass.attached) {x : QueueItem} (hx : x ∈ (s.engine k).queue) : y ≠ (x.port, x.slot) := by
  rintro rfl
  obtain ⟨-, -, -, queued, carried⟩ := h
  obtain ⟨r, onLine⟩ := carried g _ (List.mem_append_left _ hy)
  obtain ⟨r', dispatched⟩ := queued k _ (List.mem_map_of_mem hx)
  exact absurd (onLine.symm.trans dispatched) (by simp)

/-- Settles O47: a DISCOVER in QUIETING and in RUN, discovery-due, and the pass that ends out of RUN. -/
theorem picksStartJoinAndEndPasses : Obligations.PicksStartJoinAndEndPasses := by
  intro s g idle on e unparks
  refine ⟨fun k q more r list calm queue hq slot => ⟨fun quieting inactive => ?_, fun run contestless => ?_⟩,
    fun run closed list calm inactive due room => ?_, fun quiet active => ?_⟩
  · have same : s.readied g = s := by
      rw [State.readied, if_neg (by rw [quieting]; simp), State.passOver_inactive inactive]
    have unavailable : s.contestAvailable g = false := by
      rw [Bool.eq_false_iff, ne_eq, State.contestAvailable_iff, quieting]
      simp
    have picks : exec (.pick g) s = .next (s.pickDiscover g q) := by
      rw [exec_pick (by rw [quieting]; rfl) idle on, State.pickWork_rest (.inl list) calm, same,
        State.pickRest_queue unavailable queue (by rw [quieting]; rfl) (by rw [quieting]; simp), State.pickQueue, hq]
    have queue' : (s.engine g).queue = q :: more := queue
    refine ⟨_, picks, ?_⟩
    rw [State.pickDiscover_quieting quieting]
    refine ⟨by simp [quieting], by simp [queue'], by simp [idle], by simp [e], ?_⟩
    rw [State.finish_slot _ _ _ _ r (by rw [State.record_slot, State.takeHead_slot slot]; rfl)]
    rfl
  · have same : s.readied g = s := State.readied_run s g run
    have queue' : (s.engine g).queue = q :: more := queue
    have unavailable : s.contestAvailable g = false := by
      rw [Bool.eq_false_iff, ne_eq, State.contestAvailable_iff, queue']
      rintro ⟨due, -, closed, room⟩
      rcases contestless with seeding | took | ⟨inactive, undue⟩
      · exact absurd closed (by rw [seeding]; simp)
      · exact room.elim (by simp) fun room => absurd room (by rw [show (s.engine g).tookQueue = false from took]; simp)
      · exact due.elim (fun due => absurd due (by rw [show (s.engine g).pass.active = false from inactive]; simp))
          fun due => absurd due (by rw [show (s.engine g).discoveryDue = false from undue]; simp)
    have picks : exec (.pick g) s = .next (s.pickDiscover g q) := by
      rw [exec_pick (by rw [run]; rfl) idle on, State.pickWork_rest (.inl list) calm, same,
        State.pickRest_queue unavailable queue (by rw [run]; rfl) (by rw [run]; simp), State.pickQueue, hq]
    obtain ⟨attaches, starts⟩ := State.pickDiscover_run (g := g) (x := q) run
    let taken := (s.takeHead g q).record g true
    have engine : taken.engine g = { e with queue := more, tookQueue := true } := by simp [taken, queue', e]
    have goesOn : taken.slot q.port q.slot = .onLine r := by rw [State.record_slot, State.takeHead_slot slot]
    have entries : taken.entries = s.entries := by simp [taken, State.record, State.takeHead]
    have maps : taken.maps = s.maps := by simp [taken, State.record, State.takeHead]
    refine ⟨_, picks, ?_⟩
    cases ha : (s.engine g).pass.active with
    | true =>
      rw [attaches ha]
      have after : (taken.updPass g fun c => { c with attached := c.attached ++ [(q.port, q.slot)] }).engine g =
          { e with queue := more, tookQueue := true, pass := { e.pass with attached := e.pass.attached ++ [(q.port, q.slot)] } } := by
        rw [State.updPass_eq, State.updEngine_engine_same, engine]
      exact ⟨by rw [after], (State.updEngine_slot ..).trans goesOn, by rw [after], entries, maps,
        fun _ => ⟨by rw [after], by rw [after]; exact idle⟩, (fun inactive => nomatch inactive)⟩
    | false =>
      rw [starts ha]
      dsimp only
      have after : (taken.startPass g [(q.port, q.slot)]).engine g =
          { e with queue := more, tookQueue := true, pass := { noPass with active := true, attached := [(q.port, q.slot)] } } := by
        rw [State.startPass, State.updPass_eq, State.updEngine_engine_same, engine]
      by_cases un : s.unparks g = true
      · rw [if_pos un]
        have carries : ((taken.startPass g [(q.port, q.slot)]).carrying g .transaction .unparkAll none).engine g = _ :=
          State.updEngine_engine_same ..
        rw [after] at carries
        refine ⟨congrArg Engine.queue carries, ?_, congrArg Engine.tookQueue carries, entries, maps,
          (fun active => nomatch active), fun _ => ⟨congrArg Engine.pass carries,
            fun no => absurd ((State.unparks_iff s g).1 un) no, fun _ => ⟨congrArg Engine.state carries, congrArg Engine.activity carries⟩⟩⟩
        exact (State.updEngine_slot ..).trans ((State.updEngine_slot ..).trans goesOn)
      · rw [if_neg un]
        exact ⟨by rw [after], (State.updEngine_slot ..).trans goesOn, by rw [after], entries, maps,
          (fun active => nomatch active), fun _ => ⟨by rw [after]; rfl,
            fun _ => by rw [after]; exact idle, fun yes => absurd ((State.unparks_iff s g).2 yes) un⟩⟩
  · have same : s.readied g = s := State.readied_run s g run
    have available : s.contestAvailable g = true := (State.contestAvailable_iff s g).2 ⟨.inr due, run, closed, room⟩
    intro u
    have picks : exec (.pick g) s = .next (s.pickContest g) := by
      rw [exec_pick (by rw [run]; rfl) idle on, State.pickWork_rest (.inl list) calm, same, State.pickRest, if_pos available]
    have started : ((s.record g false).updEngine g fun y => { y with discoveryDue := false }).startPass g [] = u := by
      simp only [State.record, State.startPass, State.updPass_eq, State.updEngine_updEngine, u]
      rfl
    have contest : s.pickContest g =
        if s.unparks g then u.carrying g .transaction .unparkAll none else u.carrying g .contest .callUnbound none := by
      unfold State.pickContest
      dsimp only
      rw [if_neg (by rw [show (s.engine g).pass.active = false from inactive]; simp), started, State.beginContest, State.begin_eq,
        State.begin_eq]
    rw [picks, contest]
    exact ⟨fun yes => congrArg _ (if_pos ((State.unparks_iff s g).2 yes)), fun no => congrArg _ (if_neg (mt (State.unparks_iff s g).1 no))⟩
  · have out : s.runState ≠ .run := by rcases quiet with h | h <;> rw [h] <;> simp
    have live : s.runState.isStarting = false := by rcases quiet with h | h <;> rw [h] <;> rfl
    have active' : (s.engine g).pass.active = true := active
    have readied : s.readied g = s.passOver g .ok 3 := if_neg out
    obtain ⟨pass, slots⟩ := State.passesOn_pickWork (g := g) out
    refine ⟨_, exec_pick live idle on, ?_, fun agree y hy => ?_⟩
    · rw [pass, readied, State.passOver_engine_same active']
    · rw [slots y.1 y.2 fun x hx => ?_, readied]
      · exact State.attachedAnswered_passOver (agree.attachedSound g) active' .ok 3 y hy
      · rw [State.readied_engine] at hx
        exact agree.attached_ne_queued hy hx

end Sys2Proof.Machine
end

section
/-! PROOFS. The scan of a poll turn (R106). -/

namespace Sys2Proof.Machine

/-! ### The scan of a poll turn -/

/-- An entry that polls examine (R106): on the segment, and SEEDED, PRESENT or ABSENT. -/
def Entry.polled (e : Entry) (g : Seg) : Prop := e.segment = g ∧ (e.state = .seeded ∨ e.state = .present ∨ e.state = .absent)

/-- An entry that a poll turn passes over: not examined, or with a stride counter above 0 (R106). -/
def Entry.passedOver (e : Entry) (g : Seg) : Prop := e.polled g → ∃ st, e.stride = some st ∧ st.counter ≠ 0

/-- An entry whose stride counter, if it has one, has been lowered. -/
def Entry.lowered (e : Entry) : Entry := { e with stride := e.stride.map fun st => { st with counter := st.counter - 1 } }

/-- An entry whose stride counter, if it has one, has been reloaded. -/
def Entry.reloaded (e : Entry) : Entry := { e with stride := e.stride.map fun st => { st with counter := st.value - 1 } }

/-- `t` is `s` after a poll turn of segment `g` has passed over the entries of `passed` (R106). -/
structure State.ScannedTo (s t : State) (g : Seg) (passed : List Handle) : Prop where
  lowered : ∀ h ∈ passed, (s.entry h).polled g → t.entry h = (s.entry h).lowered
  others : ∀ h, h ∉ passed ∨ ¬ (s.entry h).polled g → t.entry h = s.entry h
  resolution : ∀ k, k ∈ (t.engine g).resolution ↔
    k ∈ (s.engine g).resolution ∨ (k ∈ passed ∧ (s.entry k).state = .conflict ∧ (s.entry k).segment = g)
  engine : t.engine g = { s.engine g with resolution := (t.engine g).resolution }
  engines : ∀ k, k ≠ g → t.engine k = s.engine k
  frame : t = { s with entries := t.entries, engines := t.engines }

theorem State.ScannedTo.refl (s : State) (g : Seg) : s.ScannedTo s g [] where
  lowered h hh := nomatch hh
  others h _ := rfl
  resolution k := by simp
  engine := rfl
  engines k _ := rfl
  frame := rfl

/-- One entry passed over, then others. -/
theorem State.ScannedTo.cons {s t u : State} {g : Seg} {h : Handle} {l : List Handle} (first : s.ScannedTo t g [h])
    (more : t.ScannedTo u g l) (new : h ∉ l) : s.ScannedTo u g (h :: l) where
  lowered k hk polled := by
    obtain rfl | hk := List.mem_cons.1 hk
    · rw [more.others _ (.inl new), first.lowered _ (List.mem_singleton_self _) polled]
    · have same : t.entry k = s.entry k := first.others k (.inl fun e => new (List.mem_singleton.1 e ▸ hk))
      rw [more.lowered k hk (by rwa [same]), same]
  others k hk := by
    by_cases same : k = h
    · subst same
      have unpolled : ¬ (s.entry k).polled g := hk.resolve_left fun n => n (List.mem_cons_self ..)
      rw [more.others _ (.inl new), first.others _ (.inr unpolled)]
    · have first' : t.entry k = s.entry k := first.others k (.inl fun e => same (List.mem_singleton.1 e))
      rw [more.others k (hk.imp (fun n e => n (List.mem_cons_of_mem _ e)) (by rw [first']; exact id)), first']
  resolution k := by
    rw [more.resolution, first.resolution]
    by_cases same : k = h
    · subst same
      simp [new]
    · rw [first.others k (.inl fun e => same (List.mem_singleton.1 e))]
      simp [same]
  engine := by rw [more.engine, first.engine]
  engines k n := (more.engines k n).trans (first.engines k n)
  frame := more.frame.trans (congrArg (fun x : State => { x with entries := u.entries, engines := u.engines }) first.frame)

/-- An entry that the scan leaves as it is. -/
theorem State.ScannedTo.still {s : State} {g : Seg} {h : Handle} (calm : ¬ ((s.entry h).state = .conflict ∧ (s.entry h).segment = g))
    (unpolled : ¬ (s.entry h).polled g) : s.ScannedTo s g [h] :=
  { State.ScannedTo.refl s g with
    lowered := fun k hk polled => absurd (List.mem_singleton.1 hk ▸ polled) unpolled
    others := fun _ _ => rfl
    resolution := fun _ => ⟨.inl, fun e => e.elim id fun ⟨hk, conflict⟩ => absurd (List.mem_singleton.1 hk ▸ conflict) calm⟩ }

/-- An entry whose counter the scan lowers. -/
theorem State.ScannedTo.counted {s : State} {g : Seg} {h : Handle} {st : Stride} (hst : (s.entry h).stride = some st)
    (polled : (s.entry h).polled g) :
    s.ScannedTo (s.setEntry h { s.entry h with stride := some { st with counter := st.counter - 1 } }) g [h] where
  lowered k hk _ := by
    rw [List.mem_singleton.1 hk, State.setEntry_entry_same, Entry.lowered, hst]
    rfl
  others k hk := State.setEntry_entry_ne _ _ _ _ fun same =>
    hk.elim (fun n => n (List.mem_singleton.2 same)) fun n => n (same ▸ polled)
  resolution k := by
    have calm : (s.entry h).state ≠ .conflict := by rcases polled.2 with e | e | e <;> rw [e] <;> simp
    rw [State.setEntry_engine]
    exact ⟨.inl, fun e => e.elim id fun ⟨hk, conflict, _⟩ => absurd (List.mem_singleton.1 hk ▸ conflict) calm⟩
  engine := rfl
  engines _ _ := rfl
  frame := rfl

/-- A CONFLICT entry that the scan appends to the resolution list. -/
theorem State.ScannedTo.listed {s : State} {g : Seg} {h : Handle} (conflict : (s.entry h).state = .conflict)
    (here : (s.entry h).segment = g) : s.ScannedTo (s.appendResolution g h) g [h] where
  lowered k hk polled := by
    rw [List.mem_singleton.1 hk] at polled
    rcases polled.2 with e | e | e <;> rw [e] at conflict <;> cases conflict
  others _ _ := State.updEngine_entry ..
  resolution k := by
    rw [State.appendResolution_eq_ite, State.updEngine_engine_same]
    dsimp only
    split
    · rename_i known
      exact ⟨.inl, fun e => e.elim id fun ⟨hk, _⟩ => List.mem_singleton.1 hk ▸ known⟩
    · rw [List.mem_append]
      exact or_congr_right ⟨fun hk => ⟨hk, List.mem_singleton.1 hk ▸ ⟨conflict, here⟩⟩, And.left⟩
  engine := by rw [State.appendResolution_eq_ite, State.updEngine_engine_same]
  engines k n := State.updEngine_engine_ne _ _ _ _ n
  frame := rfl

/-- The scan at an entry that polls examine (R106). -/
theorem State.pollScan_polled {s : State} {g : Seg} {h : Handle} (polled : (s.entry h).polled g) (rest : List Handle) :
    s.pollScan g (h :: rest) =
      match (s.entry h).stride with
      | none => (s, some h)
      | some st =>
        if st.counter = 0 then
          (s.setEntry h { s.entry h with stride := some { st with counter := st.value - 1 } }, some h)
        else (s.setEntry h { s.entry h with stride := some { st with counter := st.counter - 1 } }).pollScan g rest := by
  obtain ⟨here, state⟩ := polled
  rw [State.pollScan]
  dsimp only
  rw [if_pos here]
  rcases state with state | state | state <;> rw [state] <;> rfl

/-- One entry passed over (R106). -/
theorem State.pollScan_passes {s : State} {g : Seg} {h : Handle} (over' : (s.entry h).passedOver g) (rest : List Handle) :
    ∃ t, s.pollScan g (h :: rest) = t.pollScan g rest ∧ s.ScannedTo t g [h] := by
  by_cases polled : (s.entry h).polled g
  · obtain ⟨st, hst, counter⟩ := over' polled
    refine ⟨_, ?_, .counted hst polled⟩
    rw [State.pollScan_polled polled, hst]
    exact if_neg counter
  by_cases conflict : (s.entry h).state = .conflict ∧ (s.entry h).segment = g
  · refine ⟨_, ?_, .listed conflict.1 conflict.2⟩
    rw [State.pollScan]
    rw [if_pos conflict.2, conflict.1]
  · refine ⟨s, ?_, .still conflict polled⟩
    rw [State.pollScan]
    split
    · rename_i here
      split
      · exact absurd ⟨‹_›, here⟩ conflict
      · exact absurd ⟨here, .inl ‹_›⟩ polled
      · exact absurd ⟨here, .inr (.inl ‹_›)⟩ polled
      · exact absurd ⟨here, .inr (.inr ‹_›)⟩ polled
      all_goals rfl
    · rfl

/-- The scan passes over every entry that is not due (R106). -/
theorem State.pollScan_waits (g : Seg) (rest : List Handle) :
    ∀ (l : List Handle) (s : State), l.Nodup → (∀ h ∈ l, (s.entry h).passedOver g) →
      ∃ t, s.pollScan g (l ++ rest) = t.pollScan g rest ∧ s.ScannedTo t g l
  | [], s, _, _ => ⟨s, rfl, .refl s g⟩
  | h :: l, s, nodup, over' => by
    obtain ⟨new, nodup⟩ := List.nodup_cons.1 nodup
    obtain ⟨t, scan, first⟩ := State.pollScan_passes (over' h (List.mem_cons_self ..)) (l ++ rest)
    have waits : ∀ k ∈ l, (t.entry k).passedOver g := fun k hk => by
      rw [first.others k (.inl fun e => new (List.mem_singleton.1 e ▸ hk))]
      exact over' k (List.mem_cons_of_mem _ hk)
    obtain ⟨u, scan', more⟩ := State.pollScan_waits g rest l t nodup waits
    exact ⟨u, scan.trans scan', first.cons more new⟩

/-- The scan stops at the first entry that is due, and reloads its counter (R106). -/
theorem State.pollScan_due {s : State} {g : Seg} {h : Handle} (polled : (s.entry h).polled g)
    (due : ∀ st, (s.entry h).stride = some st → st.counter = 0) (rest : List Handle) :
    s.pollScan g (h :: rest) = (s.setEntry h (s.entry h).reloaded, some h) := by
  rw [State.pollScan_polled polled, Entry.reloaded]
  cases hst : (s.entry h).stride with
  | none =>
    have same : ({ s.entry h with stride := Option.map (fun st : Stride => { st with counter := st.value - 1 }) none } : Entry) =
        s.entry h := by rw [Option.map_none, ← hst]
    rw [same]
    exact congrArg (·, some h) (State.setEntry_self s h).symm
  | some st =>
    exact if_pos (due st hst)

end Sys2Proof.Machine
end

section
/-! PROOFS. The poll turn, and items 3 and 4 of the pick beside the resolution list (R80, R106). -/

namespace Sys2Proof.Machine

/-! ### Items 3 and 4 beside the resolution list -/

/-- The resolution list of engine `g`, replaced. -/
def State.listing (s : State) (g : Seg) (l : List Handle) : State := s.updEngine g fun y => { y with resolution := l }

section
variable (s : State) (g : Seg) (l : List Handle)

theorem State.listing_engine : (s.listing g l).engine g = { s.engine g with resolution := l } := State.updEngine_engine_same ..

@[simp] theorem State.listing_entry (h : Handle) : (s.listing g l).entry h = s.entry h := State.updEngine_entry ..

theorem State.listing_updEngine {f : Engine → Engine} (apart : ∀ e k, f { e with resolution := k } = { f e with resolution := k }) :
    (s.listing g l).updEngine g f = (s.updEngine g f).listing g l := by
  rw [State.listing, State.listing, State.updEngine_updEngine, State.updEngine_updEngine]
  exact congrArg (s.updEngine g) (funext fun e => apart e l)

theorem State.listing_record (took : Bool) : (s.listing g l).record g took = (s.record g took).listing g l :=
  s.listing_updEngine g l fun _ _ => rfl

theorem State.listing_begin (st : EngineState) (w : Work) (o : Option Owner) :
    (s.listing g l).begin g st w o = (s.begin g st w o).listing g l := s.listing_updEngine g l fun _ _ => rfl

theorem State.listing_updPass (f : PassRecord → PassRecord) : (s.listing g l).updPass g f = (s.updPass g f).listing g l :=
  s.listing_updEngine g l fun _ _ => rfl

theorem State.listing_startPass (a : List (PortId × SlotIx)) : (s.listing g l).startPass g a = (s.startPass g a).listing g l :=
  s.listing_updPass g l _

theorem State.listing_updPort (p : PortId) (f : PortState → PortState) :
    (s.listing g l).updPort p f = (s.updPort p f).listing g l := by
  simp [State.listing, State.updEngine_setPort]

theorem State.listing_finish (p : PortId) (i : SlotIx) (a : Answer) :
    (s.listing g l).finish p i a = (s.finish p i a).listing g l := s.listing_updPort g l p _

theorem State.listing_takeHead (x : QueueItem) : (s.listing g l).takeHead g x = (s.takeHead g x).listing g l := by
  unfold State.takeHead
  rw [s.listing_updEngine g l (fun _ _ => rfl), State.listing_updPort]

theorem State.listing_unparks : (s.listing g l).unparks g = s.unparks g := by
  unfold State.unparks
  rw [State.listing_engine]
  rfl

theorem State.listing_pickDiscover (x : QueueItem) : (s.listing g l).pickDiscover g x = (s.pickDiscover g x).listing g l := by
  unfold State.pickDiscover
  rw [State.listing_takeHead, State.listing_record, State.listing_engine, State.listing_unparks]
  dsimp only
  rw [State.listing_updPass, State.listing_startPass, State.listing_begin, State.listing_finish]
  simp only [apply_ite fun t : State => t.listing g l]
  rfl

theorem State.listing_pickContest : (s.listing g l).pickContest g = (s.pickContest g).listing g l := by
  unfold State.pickContest State.beginContest
  rw [State.listing_record, s.record g false |>.listing_updEngine g l fun _ _ => rfl, State.listing_engine, State.listing_unparks]
  dsimp only
  rw [State.listing_startPass, State.listing_begin, State.listing_begin, State.listing_begin]
  simp only [apply_ite fun t : State => t.listing g l]

theorem State.listing_pickQueue (x : QueueItem) : (s.listing g l).pickQueue g x = (s.pickQueue g x).listing g l := by
  unfold State.pickQueue
  split
  · exact s.listing_pickDiscover g l x
  · rw [State.listing_takeHead, State.listing_record, State.listing_begin]
  · rw [State.listing_takeHead]
    dsimp only
    rw [State.listing_record, State.listing_entry, State.listing_begin, State.listing_finish]
    simp only [apply_ite fun t : State => t.listing g l]
    rfl
  · rfl

/-- Items 3 and 4 of the pick do not look at the resolution list. -/
theorem State.listing_pickRest : (s.listing g l).pickRest g = (s.pickRest g).listing g l := by
  have available : (s.listing g l).contestAvailable g = s.contestAvailable g := by
    unfold State.contestAvailable
    rw [State.listing_engine]
    rfl
  have run : (s.listing g l).runState = s.runState := rfl
  have queue : ((s.listing g l).engine g).queue = (s.engine g).queue := by rw [State.listing_engine]
  unfold State.pickRest
  rw [available, run, queue]
  split
  · exact s.listing_pickContest g l
  · split
    · exact s.listing_pickQueue g l _
    · exact s.listing_pickQueue g l _
    all_goals exact s.listing_record g l false
end

/-! ### The turn's order -/

/-- The handle that a poll turn from `c` examines after `j` others (R106). -/
def turnAt (c : Handle) (j : Nat) : Handle := c + Fin.ofNat 128 j

theorem turnAt_inj {c : Handle} {j k : Nat} (hj : j < 128) (hk : k < 128) (same : turnAt c j = turnAt c k) : j = k := by
  have values := congrArg Fin.val (add_left_cancel same)
  rwa [Fin.val_ofNat, Fin.val_ofNat, Nat.mod_eq_of_lt hj, Nat.mod_eq_of_lt hk] at values

theorem turnOrder_eq (c : Handle) : turnOrder c = (List.range 128).map (turnAt c) := by
  rw [turnOrder, allHandles, ← List.map_coe_finRange_eq_range, List.map_map]
  refine List.map_congr_left fun k _ => congrArg (c + ·) ?_
  exact Fin.ext (by rw [Fin.val_ofNat, Nat.mod_eq_of_lt k.isLt])

/-- The first `n` handles of a poll turn. -/
def turnStart (c : Handle) (n : Nat) : List Handle := (List.range n).map (turnAt c)

theorem mem_turnStart {c h : Handle} {n : Nat} : h ∈ turnStart c n ↔ ∃ j, j < n ∧ h = turnAt c j := by
  simp [turnStart, eq_comm]

theorem turnStart_nodup (c : Handle) {n : Nat} (hn : n ≤ 128) : (turnStart c n).Nodup :=
  List.nodup_range.map_on fun j hj k hk same =>
    turnAt_inj (by have := List.mem_range.1 hj; omega) (by have := List.mem_range.1 hk; omega) same

/-- The handles of a poll turn before and after the one at `n`. -/
theorem turnOrder_split (c : Handle) {n : Nat} (hn : n < 128) :
    ∃ rest, turnOrder c = turnStart c n ++ turnAt c n :: rest := by
  refine ⟨(List.range' (n + 1) (127 - n)).map (turnAt c), ?_⟩
  have parts : List.range 128 = List.range n ++ n :: List.range' (n + 1) (127 - n) := by
    rw [List.range_eq_range', List.range_eq_range', ← List.range'_succ, show 127 - n + 1 = 128 - n by omega]
    have := List.range'_append (s := 0) (m := n) (n := 128 - n) (step := 1)
    rw [show n + (128 - n) = 128 by omega] at this
    simpa using this.symm
  rw [turnOrder_eq, parts, List.map_append, List.map_cons]
  rfl

/-! ### The poll turn -/

/-- The pick whose next item is a due poll (R80). -/
theorem State.pickWork_poll {s : State} {g : Seg} (free : (s.engine g).resolution = [] ∨ s.seeding = true)
    (due : (s.engine g).pollDue = true) :
    s.pickWork g =
      match ((s.readied g).updEngine g fun e => { e with pollDue := false }).pollScan g (turnOrder (s.engine g).cursor) with
      | (t, some h) => (t.record g false).beginPoll g h
      | (t, none) => t.pickRest g := by
  have turn : (s.readied g).pickPoll g = _ := if_pos (by rw [State.readied_engine, due])
  unfold State.pollTurn at turn
  dsimp only at turn
  rw [State.readied_engine s g] at turn
  rw [State.pickWork_eq, State.readied_engine s g, State.readied_seeding, turn]
  obtain none | open' := free
  · rw [none] <;> rfl
  · rw [open']
    split <;> rfl

/-- The first `n` entries of the poll turn of segment `g` from `c` have been passed over, from `s`, in which engine `g` is readied
as `u`, to `t` (R106). -/
structure State.TurnPast (s u t : State) (g : Seg) (c : Handle) (n : Nat) : Prop where
  lowered : ∀ j, j < n → (s.entry (turnAt c j)).polled g → t.entry (turnAt c j) = (s.entry (turnAt c j)).lowered
  unpolled : ∀ j, j < n → ¬ (s.entry (turnAt c j)).polled g → t.entry (turnAt c j) = s.entry (turnAt c j)
  resolution : ∀ k, k ∈ (t.engine g).resolution ↔
    k ∈ (s.engine g).resolution ∨ ∃ j, j < n ∧ k = turnAt c j ∧ (s.entry k).state = .conflict ∧ (s.entry k).segment = g
  engines : ∀ k, k ≠ g → t.engine k = u.engine k
  frame : t = { u with entries := t.entries, engines := t.engines }

/-- The scan from the readied state, with the due flag cleared. -/
theorem State.ScannedTo.turnPast {s v : State} {g : Seg} {c : Handle} {n : Nat}
    (scan : ((s.readied g).updEngine g fun e => { e with pollDue := false }).ScannedTo v g (turnStart c n)) :
    s.TurnPast (s.readied g) v g c n := by
  let w := (s.readied g).updEngine g fun e => { e with pollDue := false }
  have entry (h : Handle) : w.entry h = s.entry h := (State.updEngine_entry ..).trans (State.readied_entry ..)
  have resolution : (w.engine g).resolution = (s.engine g).resolution := by
    rw [State.updEngine_engine_same, State.readied_engine]
  refine ⟨fun j hj polled => ?_, fun j hj unpolled => ?_, fun k => ?_, fun k hk => ?_, ?_⟩
  · rw [scan.lowered _ (mem_turnStart.2 ⟨j, hj, rfl⟩) (by rwa [entry]), entry]
  · rw [scan.others _ (.inr (by rwa [entry])), entry]
  · rw [scan.resolution, resolution, entry, mem_turnStart]
    refine or_congr_right ⟨fun ⟨⟨j, hj, hk⟩, conflict⟩ => ⟨j, hj, hk, conflict⟩, fun ⟨j, hj, hk, conflict⟩ => ⟨⟨j, hj, hk⟩, conflict⟩⟩
  · rw [scan.engines k hk, State.updEngine_engine_ne _ _ _ _ hk]
  · exact scan.frame

/-- What happens after the first `n` entries, apart from those and from the resolution list. -/
theorem State.TurnPast.beyond {s u v t : State} {g : Seg} {c : Handle} {n : Nat} (past : s.TurnPast u v g c n) (hn : n < 128)
    (entries : ∀ k, k ≠ turnAt c n → t.entry k = v.entry k) (resolution : (t.engine g).resolution = (v.engine g).resolution)
    (engines : ∀ k, k ≠ g → t.engine k = v.engine k) (frame : t = { v with entries := t.entries, engines := t.engines }) :
    s.TurnPast u t g c n where
  lowered j hj polled := (entries _ fun same => absurd (turnAt_inj (by omega) hn same) (by omega)).trans (past.lowered j hj polled)
  unpolled j hj unpolled :=
    (entries _ fun same => absurd (turnAt_inj (by omega) hn same) (by omega)).trans (past.unpolled j hj unpolled)
  resolution := by rw [resolution]; exact past.resolution
  engines k hk := (engines k hk).trans (past.engines k hk)
  frame := frame.trans (congrArg (fun x : State => { x with entries := t.entries, engines := t.engines }) past.frame)

/-- Settles O46: the scan is passed over entry by entry, and it stops at the first due entry or goes on at item 3. -/
theorem pollTurnPollsTheFirstDueEntry : Obligations.PollTurnPollsTheFirstDueEntry := by
  intro s g live idle on free due u polled at_ passed waits
  let w := u.updEngine g fun e => { e with pollDue := false }
  let c := (s.engine g).cursor
  have entry (h : Handle) : w.entry h = s.entry h := (State.updEngine_entry ..).trans (State.readied_entry ..)
  have engine : w.engine g = { u.engine g with pollDue := false } := State.updEngine_engine_same ..
  have past (n : Nat) (t : State) (h : s.TurnPast u t g c n) : passed n t :=
    ⟨h.lowered, h.unpolled, h.resolution, h.engines, h.frame⟩
  have overs (n : Nat) (h : ∀ j, j < n → waits j) : ∀ k ∈ turnStart c n, (w.entry k).passedOver g := fun k hk => by
    obtain ⟨j, hj, rfl⟩ := mem_turnStart.1 hk
    rw [entry]
    exact h j hj
  have pick : exec (.pick g) s = .next _ := (exec_pick live idle on).trans (congrArg _ (State.pickWork_poll free due))
  refine ⟨fun n hn polledAt counter waiting => ?_, fun waiting => ?_⟩
  · intro h
    obtain ⟨rest, order⟩ := turnOrder_split c hn
    obtain ⟨v, scan, scanned⟩ := State.pollScan_waits g (h :: rest) _ w (turnStart_nodup c hn.le) (overs n waiting)
    have new : h ∉ turnStart c n := fun e => by
      obtain ⟨j, hj, same⟩ := mem_turnStart.1 e
      exact absurd (turnAt_inj hn (by omega) same) (by omega)
    have same : v.entry h = s.entry h := (scanned.others h (.inl new)).trans (entry h)
    have stops := State.pollScan_due (s := v) (g := g) (h := h) (by rw [same]; exact polledAt) (by rw [same]; exact counter) rest
    rw [same] at stops
    rw [show turnOrder (s.engine g).cursor = turnStart c n ++ h :: rest from order, scan.trans stops] at pick
    let x := v.setEntry h (s.entry h).reloaded
    let t := (x.record g false).beginPoll g h
    have entry_ne (k : Handle) (n : k ≠ h) : t.entry k = v.entry k := State.setEntry_entry_ne v h _ _ n
    have entry_same : t.entry h = (s.entry h).reloaded := State.setEntry_entry_same ..
    have began : t.engine g = { v.engine g with
        cursor := h + 1
        tookQueue := false
        state := .transaction
        activity := some { work := .poll h (x.entry h).identity (x.entry h).segment (x.entry h).address, owner := none, retries := 0 }
        line := (t.engine g).line } := by
      have recorded : (x.record g false).entry h = x.entry h := State.updEngine_entry ..
      simp [t, State.beginPoll, State.begin, recorded, x]
    rw [scanned.engine, engine] at began
    have past' := scanned.turnPast.beyond (t := t) hn entry_ne (by rw [began]) (fun k hk => by
      simp [t, x, State.beginPoll, State.begin, State.record, State.updEngine_engine_ne _ _ _ _ hk]) rfl
    refine ⟨t, pick, past n t past', by rw [began], by rw [began], by rw [began], by rw [began], ?_, by rw [began], ?_, entry_same,
      fun j nj hj => ?_⟩
    · rw [began, State.readied_engine]
    · rw [began, show x.entry h = _ from State.setEntry_entry_same ..]
      rfl
    · have other : at_ j ≠ h := fun e => absurd (turnAt_inj hj hn e) (by omega)
      rw [entry_ne _ other, scanned.others _ (.inl fun e => ?_), entry]
      obtain ⟨i, hi, same⟩ := mem_turnStart.1 e
      exact absurd (turnAt_inj hj (by omega) same) (by omega)
  · obtain ⟨v, scan, scanned⟩ := State.pollScan_waits g [] _ w (turnStart_nodup c le_rfl) (overs 128 waiting)
    have order : turnOrder (s.engine g).cursor = turnStart c 128 ++ [] := by rw [List.append_nil]; exact turnOrder_eq c
    rw [order, scan] at pick
    have vEngine : v.engine g = { u.engine g with pollDue := false, resolution := (v.engine g).resolution } :=
      scanned.engine.trans (by rw [engine])
    refine ⟨v, past 128 v scanned.turnPast, vEngine, (v.listing g []).pickRest g, ?_, ?_⟩
    · have still : v.runState = s.runState := (congrArg State.runState scanned.frame).trans (State.readied_runState s g)
      have engine' : (v.listing g []).engine g =
          { s.engine g with pollDue := false, resolution := [], pass := ((s.readied g).engine g).pass } := by
        rw [State.listing_engine, vEngine, State.readied_engine]
      have readied : (v.listing g []).readied g = v.listing g [] := by
        by_cases run : s.runState = .run
        · exact State.readied_run _ g (still.trans run)
        · refine (if_neg fun e => run (still.symm.trans e)).trans (State.passOver_inactive ?_ _ _)
          rw [engine']
          exact State.readied_pass s g run
      have work : (v.listing g []).pickWork g = (v.listing g []).pickRest g := by
        rw [State.pickWork_rest (.inl (by rw [engine'])) (by rw [engine']), readied]
      rw [← work]
      exact exec_pick ((congrArg RunState.isStarting still).trans live) ((congrArg Engine.state engine').trans idle)
        ((congrArg (fun e : Engine => e.settings.on) engine').trans on)
    · have back : v = (v.listing g []).listing g (v.engine g).resolution := by
        unfold State.listing
        rw [State.updEngine_updEngine]
        exact (State.updEngine_id v g).symm
      exact pick.trans (congrArg Host.Outcome.next ((congrArg (·.pickRest g) back).trans (State.listing_pickRest ..)))

end Sys2Proof.Machine
end

section
/-! PROOFS. `State.Told`: the handles that an event hands over, the notices that it raises, and whether they wake the part. -/

namespace Sys2Proof.Machine

/-! ### Handles handed over and notices raised, over a whole event -/

/-- From `s` to `t` the handles of `handed` have gone to their watchers' change sets and the notices of `raised`, by their bits,
have been set, each waking the part where it is enabled (R10, R178, R182, R186, R207). Beside that only entries, their watch sets
apart, maps and engines may differ. -/
structure State.Told (s t : State) (handed : Handle → Prop) (raised : Nat → Prop) : Prop where
  mask : ∀ q, (t.port q).notices.mask = (s.port q).notices.mask
  changed : ∀ q h, (t.port q).notices.changed[h] = true ↔
    (s.port q).notices.changed[h] = true ∨ (handed h ∧ (s.entry h).watches q = true)
  sticky : ∀ q k, k < 13 → ((t.port q).notices.sticky.getLsbD k = true ↔ (s.port q).notices.sticky.getLsbD k = true ∨ raised k)
  watches : ∀ h q, (t.entry h).watches q = (s.entry h).watches q
  wakes : s.wakesTo t handed raised
  rest : t = { s with
    entries := t.entries
    maps := t.maps
    engines := t.engines
    runState := t.runState
    portA := { s.portA with notices := t.portA.notices }
    portB := { s.portB with notices := t.portB.notices } }

/-- The part wakes in one of two events that make one (R207). -/
theorem State.wakesTo.trans {s t u : State} {handed handed' : Handle → Prop} {raised raised' : Nat → Prop}
    (mask : ∀ q, (t.port q).notices.mask = (s.port q).notices.mask)
    (watches : ∀ h q, (t.entry h).watches q = (s.entry h).watches q) (first : s.wakesTo t handed raised)
    (second : t.wakesTo u handed' raised') : s.wakesTo u (fun h => handed h ∨ handed' h) fun k => raised k ∨ raised' k := by
  obtain ⟨wakes, sleeps⟩ := first
  obtain ⟨wakes', sleeps'⟩ := second
  simp only [mask, watches] at wakes' sleeps'
  constructor
  · rintro ⟨q, cause⟩
    by_cases earlier : ∃ q : PortId, (∃ h, handed h ∧ (s.entry h).watches q = true ∧ (s.port q).notices.mask.getLsbD 1 = true) ∨
        ∃ k, raised k ∧ (s.port q).notices.mask.getLsbD k = true
    · have woke := wakes earlier
      by_cases later : ∃ q : PortId, (∃ h, handed' h ∧ (s.entry h).watches q = true ∧ (s.port q).notices.mask.getLsbD 1 = true) ∨
          ∃ k, raised' k ∧ (s.port q).notices.mask.getLsbD k = true
      · rw [wakes' later, woke, RunState.woken_woken]
      · rw [sleeps' later, woke]
    · have later : ∃ q : PortId, (∃ h, handed' h ∧ (s.entry h).watches q = true ∧ (s.port q).notices.mask.getLsbD 1 = true) ∨
          ∃ k, raised' k ∧ (s.port q).notices.mask.getLsbD k = true := by
        rcases cause with ⟨h, hh | hh, watched, enabled⟩ | ⟨k, hk | hk, enabled⟩
        · exact absurd ⟨q, .inl ⟨h, hh, watched, enabled⟩⟩ earlier
        · exact ⟨q, .inl ⟨h, hh, watched, enabled⟩⟩
        · exact absurd ⟨q, .inr ⟨k, hk, enabled⟩⟩ earlier
        · exact ⟨q, .inr ⟨k, hk, enabled⟩⟩
      rw [wakes' later, sleeps earlier]
  · intro neither
    rw [sleeps' ?_, sleeps ?_]
    · rintro ⟨q, ⟨h, hh, watched, enabled⟩ | ⟨k, hk, enabled⟩⟩
      · exact neither ⟨q, .inl ⟨h, .inl hh, watched, enabled⟩⟩
      · exact neither ⟨q, .inr ⟨k, .inl hk, enabled⟩⟩
    · rintro ⟨q, ⟨h, hh, watched, enabled⟩ | ⟨k, hk, enabled⟩⟩
      · exact neither ⟨q, .inl ⟨h, .inr hh, watched, enabled⟩⟩
      · exact neither ⟨q, .inr ⟨k, .inr hk, enabled⟩⟩

theorem State.wakesTo_silent (s t : State) (same : t.runState = s.runState) : s.wakesTo t (fun _ => False) fun _ => False :=
  ⟨fun ⟨_, cause⟩ => cause.elim (fun ⟨_, no, _⟩ => no.elim) fun ⟨_, no, _⟩ => no.elim, fun _ => same⟩

namespace State.Told

/-- A change of entries, watch sets apart, of maps and of engines. -/
theorem silent {s t : State} (watches : ∀ h q, (t.entry h).watches q = (s.entry h).watches q)
    (rest : t = { s with entries := t.entries, maps := t.maps, engines := t.engines }) :
    s.Told t (fun _ => False) fun _ => False := by
  have port (q : PortId) : t.port q = s.port q := by rw [rest]; cases q <;> rfl
  have run : t.runState = s.runState := by rw [rest]
  have portA : t.portA = s.portA := port .a
  have portB : t.portB = s.portB := port .b
  refine ⟨fun q => by rw [port], fun q h => by simp [port], fun q k _ => by simp [port], watches, s.wakesTo_silent t run, ?_⟩
  rw [portA, portB, run]
  exact rest

theorem refl (s : State) : s.Told s (fun _ => False) fun _ => False := silent (fun _ _ => rfl) rfl

theorem trans {s t u : State} {handed handed' : Handle → Prop} {raised raised' : Nat → Prop} (first : s.Told t handed raised)
    (second : t.Told u handed' raised') : s.Told u (fun h => handed h ∨ handed' h) fun k => raised k ∨ raised' k where
  mask q := (second.mask q).trans (first.mask q)
  changed q h := by rw [second.changed, first.changed, first.watches]; tauto
  sticky q k hk := by rw [second.sticky q k hk, first.sticky q k hk]; tauto
  watches h q := (second.watches h q).trans (first.watches h q)
  wakes := first.wakes.trans first.mask first.watches second.wakes
  rest := second.rest.trans (congrArg (fun x : State => { x with
    entries := u.entries
    maps := u.maps
    engines := u.engines
    runState := u.runState
    portA := { x.portA with notices := u.portA.notices }
    portB := { x.portB with notices := u.portB.notices } }) first.rest)

theorem congr {s t : State} {handed handed' : Handle → Prop} {raised raised' : Nat → Prop} (told : s.Told t handed raised)
    (same : ∀ h, handed h ↔ handed' h) (same' : ∀ k, raised k ↔ raised' k) : s.Told t handed' raised' := by
  obtain rfl : handed = handed' := funext fun h => propext (same h)
  obtain rfl : raised = raised' := funext fun k => propext (same' k)
  exact told

/-- A directory event hands over its entry's handle (R10). -/
theorem moved (s : State) {h : Handle} {e : Entry} (watches : ∀ q, e.watches q = (s.entry h).watches q) :
    s.Told (s.moved h e) (· = h) fun _ => False where
  mask q := by rw [State.moved_port]; rfl
  changed q k := by
    rw [State.moved_port]
    unfold PortState.handed NoticeUnit.handed
    by_cases same : k = h
    · subst same
      cases watched : (s.entry k).watches q <;> simp
    · have other : h.val ≠ k.val := fun e => same (Fin.ext e.symm)
      cases watched : (s.entry h).watches q <;> simp [same, other]
  sticky q k _ := by simp [State.moved_port, PortState.handed, NoticeUnit.handed]
  watches k q := by
    by_cases same : k = h
    · subst same
      rw [State.moved_entry_same]
      exact watches q
    · rw [State.moved_entry_ne _ _ _ _ same]
  wakes := by
    constructor
    · rintro ⟨q, ⟨k, rfl, watched, enabled⟩ | ⟨k, no, _⟩⟩
      · refine if_pos ?_
        cases q
        · simp [show (s.entry k).watchA = true from watched, show s.portA.notices.mask.getLsbD 1 = true from enabled]
        · simp [show (s.entry k).watchB = true from watched, show s.portB.notices.mask.getLsbD 1 = true from enabled]
      · exact no.elim
    · intro quiet
      refine if_neg fun both => quiet ?_
      rw [Bool.or_eq_true, Bool.and_eq_true, Bool.and_eq_true] at both
      exact both.elim (fun a => ⟨.a, .inl ⟨h, rfl, a⟩⟩) fun b => ⟨.b, .inl ⟨h, rfl, b⟩⟩
  rest := rfl

/-- A notice raised (R178). -/
theorem noticed (s : State) (n : Notice) : s.Told (s.noticed n) (fun _ => False) (· = n.bit) where
  mask q := by rw [State.noticed_port]; rfl
  changed q k := by rw [State.noticed_port]; simp [PortState.flagged]
  sticky q k hk := by
    rw [State.noticed_port]
    have bit : ((1#13 <<< n.bit).getLsbD k = true) ↔ k = n.bit := by
      rw [BitVec.getLsbD_shiftLeft, BitVec.getLsbD_one]
      simp only [Bool.and_eq_true, Bool.not_eq_true', decide_eq_true_eq, decide_eq_false_iff_not]
      omega
    exact Iff.trans (by rw [PortState.flagged, BitVec.getLsbD_or, Bool.or_eq_true]) (or_congr_right bit)
  watches k q := rfl
  wakes := by
    constructor
    · rintro ⟨q, ⟨k, no, _⟩ | ⟨k, rfl, enabled⟩⟩
      · exact no.elim
      · refine if_pos ?_
        cases q
        · simp [show s.portA.notices.mask.getLsbD n.bit = true from enabled]
        · simp [show s.portB.notices.mask.getLsbD n.bit = true from enabled]
    · intro quiet
      refine if_neg fun both => quiet ?_
      exact (Bool.or_eq_true_iff.1 both).elim (fun a => ⟨.a, .inr ⟨_, rfl, a⟩⟩) fun b => ⟨.b, .inr ⟨_, rfl, b⟩⟩
  rest := rfl

/-- A map slot written tells nobody. -/
theorem setMap (s : State) (g : Seg) (a : Byte) (m : MapSlot) : s.Told (s.setMap g a m) (fun _ => False) fun _ => False := by
  refine silent (fun k q => by rw [State.setMap_entry]) ?_
  unfold State.setMap
  split <;> rfl

/-- The notices raised, as one flag set. -/
theorem sticky_eq {s t : State} {handed : Handle → Prop} {raised : Nat → Prop} (told : s.Told t handed raised) {m : BitVec 13}
    (flags : ∀ k, k < 13 → (raised k ↔ m.getLsbD k = true)) (q : PortId) :
    (t.port q).notices.sticky = (s.port q).notices.sticky ||| m :=
  BitVec.eq_of_getLsbD_eq fun k hk => Bool.eq_iff_iff.2 <| by
    rw [told.sticky q k hk, BitVec.getLsbD_or, Bool.or_eq_true, flags k hk]

/-- What a told event leaves of a port. -/
theorem port {s t : State} {handed : Handle → Prop} {raised : Nat → Prop} (told : s.Told t handed raised) (q : PortId) :
    t.port q = { s.port q with notices := (t.port q).notices } := by
  have rest := told.rest
  cases q with
  | a => exact congrArg State.portA rest
  | b => exact congrArg State.portB rest

end State.Told
end Sys2Proof.Machine
end

section
/-! PROOFS. The lowering of T (R74, R114). -/

namespace Sys2Proof.Machine

/-! ### The lowering of T -/

/-- The entries of a segment held to a retire threshold written as `T` (R114). -/
def State.loweredTo (s : State) (g : Seg) (T : Nat) : State := if T < s.threshold g then s.lowerThreshold g T else s

theorem State.Told.lowerEntry (g : Seg) (T : Nat) (s : State) (h : Handle) :
    s.Told (State.lowerEntry g T s h) (fun k => k = h ∧ s.loweredBy g T k = true) fun _ => False := by
  rw [State.lowerEntry_eq]
  split
  · rename_i falls
    exact (State.Told.moved s fun _ => by rfl).congr (fun k => ⟨fun e => ⟨e, e ▸ falls⟩, And.left⟩) fun _ => .rfl
  · rename_i stays
    exact (State.Told.refl s).congr (fun k => ⟨False.elim, fun ⟨e, falls⟩ => stays (e ▸ falls)⟩) fun _ => .rfl

theorem State.Told.lowerEntries (g : Seg) (T : Nat) (l : List Handle) (distinct : l.Nodup) (s : State) :
    s.Told (l.foldl (State.lowerEntry g T) s) (fun k => k ∈ l ∧ s.loweredBy g T k = true) fun _ => False := by
  induction l generalizing s with
  | nil => exact (State.Told.refl s).congr (fun k => by simp) fun _ => .rfl
  | cons h l ih =>
    obtain ⟨new, distinct⟩ := List.nodup_cons.1 distinct
    refine ((State.Told.lowerEntry g T s h).trans (ih distinct _)).congr (fun k => ?_) fun _ => or_self_iff
    by_cases same : k = h
    · subst same
      simp [new]
    · have still := State.lowerEntry_entry_ne (g := g) (t := T) (s := s) same
      simp [same, State.loweredBy, still]

theorem State.lowerEntries_maps (g : Seg) (T : Nat) (l : List Handle) (s : State) :
    (l.foldl (State.lowerEntry g T) s).maps = s.maps := by
  induction l generalizing s with
  | nil => rfl
  | cons h l ih =>
    rw [List.foldl_cons, ih, State.lowerEntry_eq]
    split <;> rfl

theorem State.lowerEntry_updEngine (g : Seg) (T : Nat) (s : State) (k : Seg) (f : Engine → Engine) (h : Handle) :
    State.lowerEntry g T (s.updEngine k f) h = (State.lowerEntry g T s h).updEngine k f := by
  rw [State.lowerEntry_eq, State.lowerEntry_eq]
  have same : (s.updEngine k f).loweredBy g T h = s.loweredBy g T h := by rw [State.loweredBy, State.updEngine_entry, State.loweredBy]
  rw [same, State.updEngine_entry]
  split
  · rfl
  · rfl

/-- The lowering of T looks at no engine. -/
theorem State.lowerThreshold_updEngine (s : State) (g : Seg) (T : Nat) (k : Seg) (f : Engine → Engine) :
    (s.updEngine k f).lowerThreshold g T = (s.lowerThreshold g T).updEngine k f := by
  have entries (l : List Handle) (u : State) :
      l.foldl (State.lowerEntry g T) (u.updEngine k f) = (l.foldl (State.lowerEntry g T) u).updEngine k f := by
    induction l generalizing u with
    | nil => rfl
    | cons h l ih => rw [List.foldl_cons, State.lowerEntry_updEngine, ih, List.foldl_cons]
  have same : (s.updEngine k f).loweredBy g T = s.loweredBy g T := by
    funext h
    rw [State.loweredBy, State.updEngine_entry, State.loweredBy]
  unfold State.lowerThreshold
  dsimp only
  rw [entries, same]
  split
  · rw [State.raise_eq, State.raise_eq, State.noticed_updEngine]
  · rfl

theorem State.falls_iff {s : State} {g : Seg} {T : Nat} (lower : T < s.threshold g) (h : Handle) :
    s.falls g T h ↔ s.loweredBy g T h = true := by
  rw [State.loweredBy_iff, State.falls]
  exact and_iff_right lower

theorem State.Told.lowerThreshold {s : State} {g : Seg} {T : Nat} (lower : T < s.threshold g) :
    s.Told (s.lowerThreshold g T) (s.falls g T) fun k => k = 4 ∧ ∃ h, s.falls g T h := by
  have fold := State.Told.lowerEntries g T allHandles (List.nodup_finRange 128) s
  have told : ∀ k, (k ∈ allHandles ∧ s.loweredBy g T k = true) ↔ s.falls g T k := fun k => by
    rw [State.falls_iff lower]
    exact and_iff_right (List.mem_finRange k)
  have any : allHandles.any (s.loweredBy g T) = true ↔ ∃ h, s.falls g T h := by
    rw [List.any_eq_true]
    exact exists_congr told
  unfold State.lowerThreshold
  dsimp only
  split
  · rename_i some
    rw [State.raise_eq]
    exact (fold.trans (.noticed _ _)).congr (fun k => by rw [told]; simp) fun k => by simp [any.1 some, Notice.bit]
  · rename_i none
    exact fold.congr told fun k => ⟨False.elim, fun e => none (any.2 e.2)⟩

/-- A threshold written that is no lower tells nobody. -/
theorem State.Told.loweredTo (s : State) (g : Seg) (T : Nat) :
    s.Told (s.loweredTo g T) (s.falls g T) fun k => k = 4 ∧ ∃ h, s.falls g T h := by
  unfold State.loweredTo
  split
  · rename_i lower
    exact .lowerThreshold lower
  · rename_i same
    exact (State.Told.refl s).congr (fun h => ⟨False.elim, fun f => same f.1⟩) fun k => ⟨False.elim, fun ⟨_, h, f⟩ => same f.1⟩

theorem State.loweredTo_entry (s : State) (g : Seg) (T : Nat) (h : Handle) :
    (s.falls g T h → (s.loweredTo g T).entry h =
      { s.entry h with state := .absent, age := 0, generation := generationAfter (s.entry h).generation }) ∧
    (¬ s.falls g T h → (s.loweredTo g T).entry h = s.entry h) := by
  unfold State.loweredTo
  split
  · rename_i lower
    rw [State.lowerThreshold_entry, State.falls_iff lower]
    exact ⟨fun f => if_pos f, fun f => if_neg f⟩
  · rename_i same
    exact ⟨fun f => absurd f.1 same, fun _ => rfl⟩

theorem State.loweredTo_maps (s : State) (g : Seg) (T : Nat) : (s.loweredTo g T).maps = s.maps := by
  unfold State.loweredTo State.lowerThreshold
  dsimp only
  split
  · split
    · rw [State.raise_eq, show ∀ (u : State) (n : Notice), (u.noticed n).maps = u.maps from fun _ _ => rfl]
      exact State.lowerEntries_maps g T allHandles s
    · exact State.lowerEntries_maps g T allHandles s
  · rfl

theorem State.loweredTo_engines (s : State) (g : Seg) (T : Nat) : (s.loweredTo g T).engines = s.engines := by
  unfold State.loweredTo State.lowerThreshold
  dsimp only
  split
  · split
    · rw [State.raise_eq, show ∀ (u : State) (n : Notice), (u.noticed n).engines = u.engines from fun _ _ => rfl]
      exact State.lowerEntries_engines g T allHandles s
    · exact State.lowerEntries_engines g T allHandles s
  · rfl

/-- Holding the entries to a threshold is what the statements say of it (R114). -/
theorem State.lowersTo_loweredTo (s : State) (g : Seg) (T : Nat) : s.lowersTo (s.loweredTo g T) g T := by
  have told := State.Told.loweredTo s g T
  refine ⟨s.loweredTo_entry g T, fun q => ⟨told.mask q, told.changed q, fun some => ?_, fun none => ?_⟩, told.wakes, ?_⟩
  · refine told.sticky_eq (fun k hk => (and_iff_left some).trans ?_) q
    interval_cases k <;> simp
  · rw [told.sticky_eq (m := 0#13) (fun k _ => by simp [none]) q, BitVec.or_zero]
  · have rest := told.rest
    rw [State.loweredTo_maps, State.loweredTo_engines] at rest
    exact rest

theorem State.settingsWritten_eq (s : State) (g : Seg) (x : Settings) :
    s.settingsWritten g x = (s.loweredTo g x.threshold).updEngine g (·.write x) := by
  unfold State.settingsWritten State.loweredTo
  rw [State.lowerThreshold_updEngine]
  split
  · rfl
  · rfl

/-- A SET_SEGMENT that switches nothing off (R74, R93, R104, R114). -/
theorem State.applySettings_stays {s : State} {g : Seg} {x : Settings}
    (stays : x.on = true ∨ (x.on = false ∧ (s.engine g).settings.on = false ∧ (s.engine g).state ≠ .fault)) :
    s.applySettings g x = (s.loweredTo g x.threshold).updEngine g fun e => e.set x := by
  have engine : (s.loweredTo g x.threshold).engine g = s.engine g := by
    rw [State.engine, State.loweredTo_engines, State.engine]
  rw [State.applySettings_eq, State.settingsWritten_eq]
  rcases stays with on | ⟨off, old, ok⟩
  · rw [if_pos on]
    split
    · rename_i hoff
      rw [State.updEngine_updEngine]
      exact State.updEngine_congr (by rw [engine]; simp [Engine.write, Engine.set, Engine.stateSet, on, hoff])
    · rename_i hon
      exact State.updEngine_congr (by rw [engine]; simp [Engine.write, Engine.set, Engine.stateSet, hon])
  · rw [if_neg (by simp [off]), if_neg (by simp [old, ok])]
    exact State.updEngine_congr (by rw [engine]; simp [Engine.write, Engine.set, Engine.stateSet, off])

/-- Settles O38: the lowering of T, then the settings written over it. -/
theorem loweringThresholdMakesAbsent : Obligations.LoweringThresholdMakesAbsent := by
  intro s p i r rest g on per mul thr gra ret dis md hd hk hb stays hper hmul hlow hthr hgra hret hdis hmd permit fit lower state
  let x := settingsOf on per mul thr gra ret dis md
  have hon : on.toNat ≤ 1 := by rcases stays with h | h <;> simp [h]
  have one : x.on = true ↔ on = 1 := by simp [x, settingsOf]
  have suited : bodySetSegment r.body = some (g, x) := hb ▸ bodySetSegment_some g hon hper hmul hlow hthr hgra hret hdis hmd
  have stays' : x.on = true ∨ (x.on = false ∧ (s.engine g).settings.on = false ∧ (s.engine g).state ≠ .fault) := by
    rcases stays with h | ⟨h, rest⟩
    · exact .inl (one.2 h)
    · exact .inr ⟨by simp [x, settingsOf, h], rest⟩
  have engine : (s.loweredTo g x.threshold).engine g = s.engine g := by
    rw [State.engine, State.loweredTo_engines, State.engine]
  have code : (s.engine g).stateSet x.on = state := by
    simp only [Engine.stateSet, one]
    rfl
  have served := serveSetSegment_passed suited permit fit
  rw [State.applySettings_stays stays', State.updEngine_engine_same, engine] at served
  have answer : ((s.engine g).set x).settings.bytes ++ [engineCode ((s.engine g).set x).state] =
      [on, per, mul, thr, gra, ret, dis, md, engineCode state] := by
    simp only [Engine.set, x, settingsOf_bytes hon hmd]
    rw [← code]
    rfl
  rw [answer] at served
  have port := (State.Told.loweredTo s g x.threshold).port p
  refine ⟨s.loweredTo g x.threshold, s.lowersTo_loweredTo g x.threshold, ?_⟩
  refine congrArg Host.Outcome.next ((State.serve_of_heads hd hk serveSetSegment served ?_ ?_).trans ?_)
  · rw [State.updEngine_port, port]
  · rw [State.updEngine_slot, State.slot, port, State.slot]
  · rw [State.updEngine_congr]
    rw [engine, settingsOf_expiries_set, code]
    rfl

end Sys2Proof.Machine
end

section
/-! PROOFS. The retain restart (R27, R71, R99, R188, R197). -/

namespace Sys2Proof.Machine

/-! ### The retain restart -/

theorem Entry.kept_cases (e : Entry) :
    (stateCode e.kept.state ≠ stateCode e.state ∧ e.kept = { e.retained with generation := generationAfter e.generation } ∧
      stateCode e.retained.state ≠ stateCode e.state ∧ e.kept.state ≠ e.state) ∨
    (e.kept.state = e.state ∧ e.kept = e.retained ∧ e.retained.generation = e.generation ∧ bearingDiffers e e.retained = false) := by
  cases hs : e.state with
  | present | conflict | moving | retiring => exact .inl (by simp [Entry.kept, Entry.retained, hs, stateCode])
  | seeded | absent | free => exact .inr (by simp [Entry.kept, Entry.retained, hs, bearingDiffers])

theorem Entry.kept_watches (e : Entry) (q : PortId) : e.kept.watches q = e.watches q := by
  unfold Entry.kept
  split <;> cases q <;> rfl

/-- A kept entry's change of state is a directory event (R12, R27). -/
theorem State.retainEntry_eq (s : State) (h : Handle) :
    ((s.entry h).kept.state ≠ (s.entry h).state → s.retainEntry h = s.moved h (s.entry h).retained) ∧
    ((s.entry h).kept.state = (s.entry h).state → s.retainEntry h = s.setEntry h (s.entry h).kept) := by
  rcases (s.entry h).kept_cases with ⟨-, -, code, other⟩ | ⟨same, kept, gen, bare⟩
  · exact ⟨fun _ => State.change_of_state s h _ code.symm (Entry.retained_watch _).1 (Entry.retained_watch _).2,
      fun same => absurd same other⟩
  · exact ⟨fun other => absurd same other, fun _ => by rw [kept]; exact State.change_same s h _ bare gen⟩

theorem State.retainEntry_entry (s : State) (h k : Handle) :
    (s.retainEntry h).entry k = if k = h then (s.entry k).kept else s.entry k := by
  obtain ⟨moves, stays⟩ := s.retainEntry_eq h
  by_cases same : (s.entry h).kept.state = (s.entry h).state
  · rw [stays same, State.setEntry_entry]
    split <;> simp [*]
  · rw [moves same]
    split
    · rename_i hk
      subst hk
      rw [State.moved_entry_same]
      rcases (s.entry k).kept_cases with ⟨-, kept, -⟩ | ⟨same', -⟩
      · exact kept.symm
      · exact absurd same' same
    · rename_i hk
      exact State.moved_entry_ne _ _ _ _ hk

theorem State.Told.retainEntry (s : State) (h : Handle) :
    s.Told (s.retainEntry h) (fun k => k = h ∧ (s.entry k).kept.state ≠ (s.entry k).state) fun _ => False := by
  obtain ⟨moves, stays⟩ := s.retainEntry_eq h
  by_cases same : (s.entry h).kept.state = (s.entry h).state
  · rw [stays same]
    refine (State.Told.silent (fun k q => ?_) rfl).congr (fun k => ⟨False.elim, fun ⟨e, other⟩ => other (e ▸ same)⟩) fun _ => .rfl
    rw [State.setEntry_entry]
    split
    · subst_vars
      exact Entry.kept_watches _ q
    · rfl
  · rw [moves same]
    refine (State.Told.moved s fun q => ?_).congr (fun k => ⟨fun e => ⟨e, e ▸ same⟩, And.left⟩) fun _ => .rfl
    cases q
    · exact (Entry.retained_watch _).1
    · exact (Entry.retained_watch _).2

theorem State.retainEntries_entry (l : List Handle) (distinct : l.Nodup) (s : State) (h : Handle) :
    (l.foldl State.retainEntry s).entry h = if h ∈ l then (s.entry h).kept else s.entry h := by
  induction l generalizing s with
  | nil => simp
  | cons k l ih =>
    obtain ⟨new, distinct⟩ := List.nodup_cons.1 distinct
    rw [List.foldl_cons, ih distinct, State.retainEntry_entry]
    by_cases same : h = k
    · subst same
      simp [new]
    · simp [same]

theorem State.Told.retainEntries (l : List Handle) (distinct : l.Nodup) (s : State) :
    s.Told (l.foldl State.retainEntry s) (fun k => k ∈ l ∧ (s.entry k).kept.state ≠ (s.entry k).state) fun _ => False := by
  induction l generalizing s with
  | nil => exact (State.Told.refl s).congr (fun k => by simp) fun _ => .rfl
  | cons h l ih =>
    obtain ⟨new, distinct⟩ := List.nodup_cons.1 distinct
    refine ((State.Told.retainEntry s h).trans (ih distinct _)).congr (fun k => ?_) fun _ => or_self_iff
    rw [State.retainEntry_entry]
    by_cases same : k = h
    · subst same
      simp [new]
    · simp [same]

theorem State.retainEntries_rest (l : List Handle) (s : State) :
    (l.foldl State.retainEntry s).maps = s.maps ∧ (l.foldl State.retainEntry s).engines = s.engines := by
  induction l generalizing s with
  | nil => exact ⟨rfl, rfl⟩
  | cons h l ih =>
    obtain ⟨maps, engines⟩ := ih (s.retainEntry h)
    exact ⟨maps.trans (State.change_maps ..), engines.trans (State.change_engines ..)⟩

/-- The retain restart over the part that it has emptied (R27, R188). -/
theorem State.Told.retainRestart (s : State) :
    s.retainedBase.Told s.retainRestart (fun h => (s.entry h).kept.state ≠ (s.entry h).state) (· = 11) := by
  rw [State.retainRestart_eq, State.raise_eq]
  refine ((State.Told.retainEntries allHandles (List.nodup_finRange 128) s.retainedBase).trans (.noticed _ _)).congr
    (fun h => ?_) fun k => ?_
  · rw [or_false, State.retainedBase_entry]
    exact and_iff_right (List.mem_finRange h)
  · rw [false_or]
    rfl

theorem State.retainRestart_entry (s : State) (h : Handle) : s.retainRestart.entry h = (s.entry h).kept := by
  rw [State.retainRestart_eq, State.raise_entry, State.retainEntries_entry allHandles (List.nodup_finRange 128), State.retainedBase_entry]
  exact if_pos (List.mem_finRange h)

theorem State.retainRestart_engine (s : State) (g : Seg) : s.retainRestart.engine g = (s.engine g).retained g := by
  rw [State.retainRestart_eq, State.raise_engine, State.engine, (State.retainEntries_rest allHandles s.retainedBase).2,
    ← State.engine, State.retainedBase_engine]

theorem State.retainRestart_mapSlot (s : State) (g : Seg) (a : Byte) :
    s.retainRestart.mapSlot g a = match s.mapSlot g a with | .held h => .held h | _ => .empty := by
  have base : s.retainRestart.mapSlot g a = s.retainedBase.mapSlot g a := by
    rw [State.retainRestart_eq, State.raise_mapSlot, State.mapSlot, (State.retainEntries_rest allHandles s.retainedBase).1]
    rfl
  rw [base]
  unfold State.mapSlot
  cases mapIx a with
  | none => rfl
  | some k =>
    have slot : (s.retainedBase.maps[g])[k] = ((s.maps[g])[k]).retained := by simp [State.retainedBase]
    dsimp only
    rw [slot]
    cases (s.maps[g])[k] <;> rfl

/-- The line of a segment after a retain restart (R71, R99). -/
theorem Engine.retained_line (e : Engine) (g : Seg) :
    (e.retained g).line = { e.line with attempt := none, driving := (e.retained g).line.driving } ∧
      ((e.retained g).line.driving = true ↔
        (e.line.driving = true ∨ ∃ a, e.line.attempt = some a ∧ a.phase ≠ .idleWait) ∧
          ((e.retained g).state = .off → Config.breakOutlastsOff g = true)) := by
  have cut : e.line.cutOff = { e.line with attempt := none, driving := e.line.cutOff.driving } ∧
      (e.line.cutOff.driving = true ↔ e.line.driving = true ∨ ∃ a, e.line.attempt = some a ∧ a.phase ≠ .idleWait) := by
    unfold Line.cutOff
    cases ha : e.line.attempt with
    | none => exact ⟨congrArg (fun x : Option Attempt => { e.line with attempt := x }) ha, by simp⟩
    | some a =>
      dsimp only
      split
      · rename_i begun
        exact ⟨rfl, by simpa [Attempt.begun] using Or.inr begun⟩
      · rename_i waits
        have idle : a.phase = .idleWait := by simpa [Attempt.begun] using waits
        exact ⟨rfl, by simp [idle]⟩
  obtain ⟨line, driving⟩ := cut
  have state : (e.retained g).state = e.stateRetained := rfl
  rw [state]
  by_cases off : e.stateRetained = .off
  · have cutOff : (e.retained g).line = e.line.cutOff.switchedOff g := if_pos off
    rw [cutOff]
    refine ⟨?_, ?_⟩
    · rw [Line.switchedOff, line]
    · rw [Line.switchedOff, ← driving]
      simp [off]
  · have cutOff : (e.retained g).line = e.line.cutOff := if_neg off
    rw [cutOff]
    exact ⟨line, by rw [← driving]; simp [off]⟩

/-- Settles O33. -/
theorem retainRestartKeepsTheDirectory : Obligations.RetainRestartKeepsTheDirectory := by
  intro s p i r rest hd hk hb
  have told := State.Told.retainRestart s
  have fields := told.rest
  have run : s.retainRestart.runState = .run := by
    obtain ⟨wakes, sleeps⟩ := told.wakes
    by_cases h : ∃ q : PortId, (∃ h, (s.entry h).kept.state ≠ (s.entry h).state ∧ (s.retainedBase.entry h).watches q = true ∧
        (s.retainedBase.port q).notices.mask.getLsbD 1 = true) ∨ ∃ k, k = 11 ∧ (s.retainedBase.port q).notices.mask.getLsbD k = true
    · exact wakes h
    · exact sleeps h
  refine ⟨s.retainRestart, ?_, run, by rw [fields]; rfl, by rw [fields]; rfl, by rw [fields]; rfl, by rw [fields]; rfl,
    by rw [fields]; rfl, s.retainRestart_entry, s.retainRestart_mapSlot, fun q => ?_,
    fun g => ?_⟩
  · exact congrArg Host.Outcome.next (State.dispatchRestart_of_heads hd hk (by rw [hb]; rfl) _)
  · have port := told.port q
    rw [State.retainedBase_port] at port
    refine ⟨fun j => ?_, by rw [port]; rfl, by rw [port]; rfl, by rw [port]; rfl, by rw [port]; rfl, by rw [port]; rfl, ?_, ?_,
      fun h => ?_⟩
    · rw [State.slot, port]
      simp [PortState.freed]
    · rw [told.mask, State.retainedBase_port]
      rfl
    · rw [told.sticky_eq (m := 0x800) (fun k hk => by interval_cases k <;> simp) q, State.retainedBase_port]
      rfl
    · rw [told.changed, State.retainedBase_port, State.retainedBase_entry, s.retainRestart_entry]
      exact or_congr_right and_comm
  · obtain ⟨line, driving⟩ := (s.engine g).retained_line g
    rw [State.retainRestart_engine]
    exact ⟨rfl, rfl, rfl, rfl, rfl, rfl, rfl, rfl, rfl, rfl, rfl, rfl, rfl, rfl, rfl, line, driving, rfl⟩

end Sys2Proof.Machine
end

section
/-! PROOFS. A list of answers given one after the other. -/

namespace Sys2Proof.Machine

/-! ### A list of answers -/

/-- The requests of the given slots are answered one after the other, each with its own answer. -/
def State.answering (s : State) : List (PortId × SlotIx × Answer) → State
  | [] => s
  | (p, i, a) :: l => (s.finish p i a).answering l

/-- The slots that a list of answers names. -/
def askedSlots (l : List (PortId × SlotIx × Answer)) : List (PortId × SlotIx) := l.map fun x => (x.1, x.2.1)

theorem State.answering_append (s : State) (l l' : List (PortId × SlotIx × Answer)) :
    s.answering (l ++ l') = (s.answering l).answering l' := by
  induction l generalizing s with
  | nil => rfl
  | cons x l ih => exact ih _

theorem State.answerAll_answering (s : State) (a : Answer) (l : List (PortId × SlotIx)) :
    s.answerAll a l = s.answering (l.map fun x => (x.1, x.2, a)) := by
  induction l generalizing s with
  | nil => rfl
  | cons x l ih => exact ih _

theorem State.finish_updEngine (s : State) (p : PortId) (i : SlotIx) (a : Answer) (g : Seg) (f : Engine → Engine) :
    (s.updEngine g f).finish p i a = (s.finish p i a).updEngine g f := by
  rw [State.finish, State.finish, State.updPort_eq, State.updPort_eq, State.updEngine_port, State.updEngine_setPort]

theorem State.answering_updEngine (s : State) (l : List (PortId × SlotIx × Answer)) (g : Seg) (f : Engine → Engine) :
    (s.updEngine g f).answering l = (s.answering l).updEngine g f := by
  induction l generalizing s with
  | nil => rfl
  | cons x l ih =>
    obtain ⟨p, i, a⟩ := x
    rw [State.answering, State.finish_updEngine, ih, State.answering]

/-! ### What answers leave -/

theorem State.finish_frame (s : State) (p : PortId) (i : SlotIx) (a : Answer) :
    s.finish p i a = { s with portA := (s.finish p i a).portA, portB := (s.finish p i a).portB } := by
  rw [State.finish, State.updPort_eq]
  cases p <;> rfl

theorem State.answering_frame (s : State) (l : List (PortId × SlotIx × Answer)) :
    s.answering l = { s with portA := (s.answering l).portA, portB := (s.answering l).portB } := by
  induction l generalizing s with
  | nil => rfl
  | cons x l ih =>
    obtain ⟨p, i, a⟩ := x
    exact (ih _).trans (congrArg (fun t : State => { t with
      portA := ((s.finish p i a).answering l).portA, portB := ((s.finish p i a).answering l).portB }) (s.finish_frame p i a))

section
variable (s : State) (l : List (PortId × SlotIx × Answer))

@[simp] theorem State.answering_entries : (s.answering l).entries = s.entries := by rw [State.answering_frame]
@[simp] theorem State.answering_maps : (s.answering l).maps = s.maps := by rw [State.answering_frame]
@[simp] theorem State.answering_engines : (s.answering l).engines = s.engines := by rw [State.answering_frame]
@[simp] theorem State.answering_runState : (s.answering l).runState = s.runState := by rw [State.answering_frame]

@[simp] theorem State.answering_entry (h : Handle) : (s.answering l).entry h = s.entry h := by simp [State.entry]
@[simp] theorem State.answering_mapSlot (g : Seg) (b : Byte) : (s.answering l).mapSlot g b = s.mapSlot g b := by simp [State.mapSlot]
@[simp] theorem State.answering_engine (g : Seg) : (s.answering l).engine g = s.engine g := by simp [State.engine]

end

theorem State.finish_port (s : State) (p q : PortId) (i : SlotIx) (a : Answer) :
    (s.finish p i a).port q = if q = p then (s.port p).finish i a else s.port q := by
  rw [State.finish, State.updPort_eq, State.setPort_port]

/-- Answers touch no exchange, previous outcome or notice unit. -/
theorem State.answering_port (s : State) (l : List (PortId × SlotIx × Answer)) (q : PortId) :
    ((s.answering l).port q).notices = (s.port q).notices ∧ ((s.answering l).port q).previous = (s.port q).previous ∧
      ((s.answering l).port q).exchange = (s.port q).exchange := by
  induction l generalizing s with
  | nil => exact ⟨rfl, rfl, rfl⟩
  | cons x l ih =>
    obtain ⟨p, i, a⟩ := x
    obtain ⟨notices, previous, exchange⟩ := ih (s.finish p i a)
    have one (x : PortState) : (x.finish i a).notices = x.notices ∧ (x.finish i a).previous = x.previous ∧
        (x.finish i a).exchange = x.exchange := by
      unfold PortState.finish
      split <;> exact ⟨rfl, rfl, rfl⟩
    rw [State.finish_port] at notices previous exchange
    by_cases same : q = p
    · subst same
      rw [if_pos rfl] at notices previous exchange
      exact ⟨notices.trans (one _).1, previous.trans (one _).2.1, exchange.trans (one _).2.2⟩
    · rw [if_neg same] at notices previous exchange
      exact ⟨notices, previous, exchange⟩

/-! ### Answers to requests in slots of their own -/

/-- Each answer is to a request that its slot holds, and no slot is answered twice. -/
def State.answerable (s : State) (l : List (PortId × SlotIx × Answer)) : Prop :=
  (askedSlots l).Nodup ∧ ∀ x ∈ askedSlots l, ∃ r, (s.slot x.1 x.2).request? = some r

theorem State.answerable.tail {s : State} {p : PortId} {i : SlotIx} {a : Answer} {l : List (PortId × SlotIx × Answer)}
    (h : s.answerable ((p, i, a) :: l)) : (p, i) ∉ askedSlots l ∧ (s.finish p i a).answerable l := by
  obtain ⟨distinct, held⟩ := h
  obtain ⟨new, distinct⟩ : (p, i) ∉ askedSlots l ∧ (askedSlots l).Nodup := List.nodup_cons.1 distinct
  refine ⟨new, distinct, fun x hx => ?_⟩
  have other : (x.1, x.2) ≠ (p, i) := fun e => new (e ▸ hx)
  rw [State.finish_slot_ne _ _ _ _ _ _ other]
  exact held x (List.mem_cons_of_mem _ hx)

theorem State.answering_slot_ne (s : State) {l : List (PortId × SlotIx × Answer)} {q : PortId} {j : SlotIx}
    (n : (q, j) ∉ askedSlots l) : (s.answering l).slot q j = s.slot q j := by
  induction l generalizing s with
  | nil => rfl
  | cons x l ih =>
    obtain ⟨p, i, a⟩ := x
    obtain ⟨other, rest⟩ := not_or.1 (mt List.mem_cons.2 n)
    rw [State.answering, ih _ rest, State.finish_slot_ne _ _ _ _ _ _ other]

theorem State.answering_slot {s : State} {l : List (PortId × SlotIx × Answer)} (h : s.answerable l) {q : PortId} {j : SlotIx}
    {b : Answer} (m : (q, j, b) ∈ l) {r : Request} (hr : (s.slot q j).request? = some r) :
    (s.answering l).slot q j = .completed r (r.respond b) := by
  induction l generalizing s with
  | nil => cases m
  | cons x l ih =>
    obtain ⟨p, i, a⟩ := x
    obtain ⟨new, tail⟩ := h.tail
    rw [State.answering]
    obtain same | later := List.mem_cons.1 m
    · cases same
      rw [State.answering_slot_ne _ new, State.finish_slot _ _ _ _ r hr]
    · have other : (q, j) ≠ (p, i) := fun e => new (e ▸ List.mem_map_of_mem (f := fun x => (x.1, x.2.1)) later)
      exact ih tail later (by rw [State.finish_slot_ne _ _ _ _ _ _ other, hr])

theorem PortState.finish_held {x : PortState} {i : SlotIx} {r : Request} (hr : x.slots[i].request? = some r) (a : Answer) :
    x.finish i a =
      { x with
        slots := x.slots.set i (.completed r (r.respond a))
        waiting := x.waiting.filter (· != i)
        completed := x.completed ++ [i]
        waitsFor := if x.waiting.head? = some i then none else x.waitsFor } := by
  unfold PortState.finish
  rw [hr]

/-- The lists of a port after a list of answers: the answered requests are out of its WAITING list and at the end of its
completion order (R169, R172). -/
theorem State.answering_lists {s : State} {l : List (PortId × SlotIx × Answer)} (h : s.answerable l) (q : PortId) :
    ((s.answering l).port q).waiting = (s.port q).waiting.filter (fun i => (q, i) ∉ askedSlots l) ∧
      ((s.answering l).port q).completed = (s.port q).completed ++ ((askedSlots l).filter (·.1 == q)).map Prod.snd ∧
      ((s.answering l).port q).waitsFor =
        if ∃ i, (s.port q).waiting.head? = some i ∧ (q, i) ∈ askedSlots l then none else (s.port q).waitsFor := by
  induction l generalizing s with
  | nil => simp [State.answering, askedSlots]
  | cons x l ih =>
    obtain ⟨p, i, a⟩ := x
    obtain ⟨r, hr⟩ := h.2 (p, i) (List.mem_cons_self ..)
    obtain ⟨waiting, completed, waitsFor⟩ := ih h.tail.2
    have names : askedSlots ((p, i, a) :: l) = (p, i) :: askedSlots l := rfl
    rw [State.answering, waiting, completed, waitsFor, State.finish_port, names]
    by_cases same : q = p
    · subst same
      rw [if_pos rfl, PortState.finish_held hr]
      refine ⟨?_, ?_, ?_⟩
      · rw [List.filter_filter]
        refine List.filter_congr fun j _ => ?_
        by_cases hj : j = i <;> simp [hj]
      · simp
      · dsimp only
        cases hw : (s.port q).waiting with
        | nil => simp
        | cons j w =>
          by_cases hj : j = i
          · subst hj
            simp
          · simp [hj]
    · rw [if_neg same]
      have other (j : SlotIx) : (q, j) ∈ (p, i) :: askedSlots l ↔ (q, j) ∈ askedSlots l := by simp [same]
      refine ⟨?_, ?_, ?_⟩
      · simp only [other]
      · simp [Ne.symm same]
      · simp only [other]

end Sys2Proof.Machine
end

section
/-! PROOFS. `State.Returns`: the return of the entries of MOVEs and RETIREs that do not run (R94). -/

namespace Sys2Proof.Machine

/-! ### The return of a MOVE or a RETIRE that does not run -/

/-- The entry is MOVING or RETIRING, with prior state `p`. -/
def Entry.heldAs (e : Entry) (p : Prior) : Prop := (∃ a, e.state = .moving p a) ∨ ∃ f, e.state = .retiring p f

theorem Entry.inHand_iff_heldAs (e : Entry) : e.inHand ↔ ∃ p, e.heldAs p := by
  unfold Entry.inHand Entry.heldAs
  exact exists_or.symm

theorem Entry.lapses_iff {e : Entry} {p : Prior} (held : e.heldAs p) (T : Nat) :
    e.lapses T ↔ (p = .seeded ∨ p = .present) ∧ T ≤ e.silence := by
  have unique (p' : Prior) (h : e.heldAs p') : p' = p := by
    rcases held with ⟨a, h1⟩ | ⟨f, h1⟩ <;> rcases h with ⟨b, h2⟩ | ⟨k, h2⟩ <;> rw [h1] at h2 <;> cases h2 <;> rfl
  exact ⟨fun ⟨le, p', prior, held'⟩ => ⟨unique p' held' ▸ prior, le⟩, fun ⟨prior, le⟩ => ⟨le, p, prior, held⟩⟩

theorem Entry.lapses_inHand {e : Entry} {T : Nat} (h : e.lapses T) : e.inHand := by
  obtain ⟨-, p, -, held⟩ := h
  exact (e.inHand_iff_heldAs).2 ⟨p, held⟩

/-- What the return makes of an entry in hand with prior state `p`, but for the generation (R94). -/
def Entry.cameBack (e : Entry) (p : Prior) (T : Nat) : Entry :=
  match p with
  | .seeded | .present => if T ≤ e.silence then { e with state := .absent, age := 0 } else { e with state := priorState p, age := 0 }
  | .absent => { e with state := .absent }
  | .conflict => { e with state := .conflict, age := 0 }

theorem Entry.returned_held {e : Entry} {p : Prior} (held : e.heldAs p) (T : Nat) :
    e.returned T = { e.cameBack p T with generation := generationAfter e.generation } := by
  unfold Entry.returned
  obtain ⟨a, h⟩ | ⟨f, h⟩ := held <;> rw [h] <;> rfl

theorem Entry.returned_free {e : Entry} (free : ¬ e.inHand) (T : Nat) : e.returned T = e := by
  cases hs : e.state with
  | moving p a => exact absurd (.inl ⟨p, a, hs⟩) free
  | retiring p f => exact absurd (.inr ⟨p, f, hs⟩) free
  | free | seeded | present | absent | conflict => simp [Entry.returned, hs]

theorem Entry.cameBack_facts (e : Entry) (p : Prior) (T : Nat) :
    (e.cameBack p T).segment = e.segment ∧ ¬ (e.cameBack p T).inHand ∧ ∀ q, (e.cameBack p T).watches q = e.watches q := by
  have watches (f : Entry) (a : f.watchA = e.watchA) (b : f.watchB = e.watchB) (q : PortId) : f.watches q = e.watches q := by
    cases q
    · exact a
    · exact b
  unfold Entry.cameBack Entry.inHand
  cases p with
  | seeded | present =>
    dsimp only
    split
    · exact ⟨rfl, by simp, watches _ rfl rfl⟩
    · exact ⟨rfl, by simp [priorState], watches _ rfl rfl⟩
  | absent | conflict => exact ⟨rfl, by simp, watches _ rfl rfl⟩

theorem Entry.returned_segment (e : Entry) (T : Nat) : (e.returned T).segment = e.segment := by
  by_cases hand : e.inHand
  · obtain ⟨p, held⟩ := e.inHand_iff_heldAs.1 hand
    rw [Entry.returned_held held]
    exact (e.cameBack_facts p T).1
  · rw [Entry.returned_free hand]

/-- A returned entry is in nobody's hand any more. -/
theorem Entry.returned_inHand (e : Entry) (T : Nat) : ¬ (e.returned T).inHand := by
  by_cases hand : e.inHand
  · obtain ⟨p, held⟩ := e.inHand_iff_heldAs.1 hand
    rw [Entry.returned_held held]
    exact (e.cameBack_facts p T).2.1
  · rwa [Entry.returned_free hand]

/-- An entry goes back with its silence as it is. -/
theorem State.backTo_cameBack (s : State) (h : Handle) (p : Prior) :
    s.backTo h p (s.entry h).silence =
      if (p = .seeded ∨ p = .present) ∧ s.threshold (s.entry h).segment ≤ (s.entry h).silence then
        (s.moved h ((s.entry h).cameBack p (s.threshold (s.entry h).segment))).noticed .absent
      else s.moved h ((s.entry h).cameBack p (s.threshold (s.entry h).segment)) := by
  unfold State.backTo Entry.cameBack
  cases p with
  | seeded | present =>
    dsimp only
    by_cases le : s.threshold (s.entry h).segment ≤ (s.entry h).silence
    · rw [if_pos le, if_pos ⟨by simp, le⟩, if_pos le]
    · rw [if_neg le, if_neg fun c => le c.2, if_neg le]
  | absent | conflict => exact (if_neg (by simp)).symm

theorem State.returnEntry_engines (s : State) (h : Handle) : (s.returnEntry h).engines = s.engines := by
  have restore (t : State) (p : Prior) (n : Nat) : (t.restore h p n).engines = t.engines := by
    have absent : (t.makeAbsent h n).engines = t.engines := by
      rw [State.makeAbsent, State.raise_eq]
      exact State.change_engines ..
    unfold State.restore
    dsimp only
    split
    · split
      · exact absent
      · exact State.change_engines ..
    · split
      · exact absent
      · exact State.change_engines ..
    all_goals exact State.change_engines ..
  unfold State.returnEntry
  split
  · rw [restore, State.setMap_engines]
  · rw [restore]
  all_goals rfl

theorem State.returnItem_engines (s : State) (x : QueueItem) : (s.returnItem x).engines = s.engines := by
  unfold State.returnItem
  split
  · split
    · exact State.returnEntry_engines ..
    · rfl
  · rfl

theorem State.returnItems_engines (s : State) (l : List QueueItem) : (s.returnItems l).engines = s.engines := by
  induction l generalizing s with
  | nil => rfl
  | cons x l ih => exact (ih _).trans (s.returnItem_engines x)

/-! ### The return of several entries -/

/-- `t` is `s` with the `given` entries returned (R94), their watchers told and the lapses noticed. -/
structure State.Returns (s t : State) (T : Seg → Nat) (given : Handle → Prop) : Prop where
  effect : s.returnsTo t T given
  told : s.Told t (fun h => given h ∧ (s.entry h).inHand)
    fun k => k = 4 ∧ ∃ h, given h ∧ (s.entry h).lapses (T (s.entry h).segment)
namespace State.Returns

theorem refl (s : State) (T : Seg → Nat) : s.Returns s T fun _ => False where
  effect := ⟨fun h => ⟨False.elim, fun _ => rfl⟩, fun g a => ⟨fun ⟨_, _, no, _⟩ => no.elim, fun _ => rfl⟩⟩
  told := (State.Told.refl s).congr (fun h => by simp) fun k => by simp

/-- A change of engines alone returns nothing. -/
theorem updEngine (s : State) (g : Seg) (f : Engine → Engine) (T : Seg → Nat) : s.Returns (s.updEngine g f) T fun _ => False where
  effect := ⟨fun h => ⟨False.elim, fun _ => State.updEngine_entry ..⟩,
    fun k a => ⟨fun ⟨_, _, no, _⟩ => no.elim, fun _ => State.updEngine_mapSlot ..⟩⟩
  told := (State.Told.silent (fun h q => by rw [State.updEngine_entry]) rfl).congr (fun h => by simp) fun k => by simp

theorem congr {s t : State} {T : Seg → Nat} {given given' : Handle → Prop} (h : s.Returns t T given)
    (same : ∀ k, given k ↔ given' k) : s.Returns t T given' := by
  obtain rfl : given = given' := funext fun k => propext (same k)
  exact h

theorem segment {s t : State} {T : Seg → Nat} {given : Handle → Prop} (h : s.Returns t T given) (k : Handle) :
    (t.entry k).segment = (s.entry k).segment := by
  obtain ⟨back, stays⟩ := h.effect.1 k
  by_cases hk : given k
  · rw [back hk, Entry.returned_segment]
  · rw [stays hk]

/-- Once returned an entry stays returned. -/
theorem trans {s t u : State} {T : Seg → Nat} {given given' : Handle → Prop} (first : s.Returns t T given)
    (second : t.Returns u T given') : s.Returns u T fun h => given h ∨ given' h where
  effect := by
    refine ⟨fun h => ⟨fun either => ?_, fun neither => ?_⟩, fun g a => ⟨fun freed => ?_, fun stays => ?_⟩⟩
    · obtain ⟨back, stays⟩ := first.effect.1 h
      obtain ⟨back', stays'⟩ := second.effect.1 h
      by_cases hh : given h
      · by_cases hh' : given' h
        · rw [back' hh', back hh, Entry.returned_free (Entry.returned_inHand _ _)]
        · rw [stays' hh', back hh]
      · rw [back' (either.resolve_left hh), stays hh]
    · rw [(second.effect.1 h).2 fun e => neither (.inr e), (first.effect.1 h).2 fun e => neither (.inl e)]
    · obtain ⟨h, p, either, here, moving⟩ := freed
      by_cases again : ∃ h p, given' h ∧ (t.entry h).segment = g ∧ (t.entry h).state = .moving p a
      · exact (second.effect.2 g a).1 again
      · rw [(second.effect.2 g a).2 again]
        refine (first.effect.2 g a).1 ⟨h, p, ?_, here, moving⟩
        by_contra no
        refine again ⟨h, p, either.resolve_left no, ?_, ?_⟩
        · rw [first.segment, here]
        · rw [(first.effect.1 h).2 no, moving]
    · rw [(second.effect.2 g a).2 ?_, (first.effect.2 g a).2 ?_]
      · exact fun ⟨h, p, hh, here, moving⟩ => stays ⟨h, p, .inl hh, here, moving⟩
      · rintro ⟨h, p, hh, here, moving⟩
        by_cases earlier : given h
        · rw [(first.effect.1 h).1 earlier] at moving
          exact Entry.returned_inHand _ _ (.inl ⟨p, a, moving⟩)
        · rw [(first.effect.1 h).2 earlier] at moving here
          exact stays ⟨h, p, .inr hh, here, moving⟩
  told := by
    have inHand (h : Handle) (no : ¬ given h) : t.entry h = s.entry h := (first.effect.1 h).2 no
    have free (h : Handle) (hh : given h) : ¬ (t.entry h).inHand := by
      rw [(first.effect.1 h).1 hh]
      exact Entry.returned_inHand _ _
    refine (first.told.trans second.told).congr (fun h => ?_) fun k => ?_
    · by_cases hh : given h
      · simp [hh, free h hh]
      · simp [hh, inHand h hh]
    · refine ⟨fun e => e.elim (fun ⟨hk, h, hh, lapses⟩ => ⟨hk, h, .inl hh, lapses⟩) fun ⟨hk, h, hh, lapses⟩ => ?_,
        fun ⟨hk, h, hh, lapses⟩ => ?_⟩
      · have no : ¬ given h := fun e => free h e (Entry.lapses_inHand lapses)
        rw [inHand h no] at lapses
        exact ⟨hk, h, .inr hh, lapses⟩
      · by_cases earlier : given h
        · exact .inl ⟨hk, h, earlier, lapses⟩
        · exact .inr ⟨hk, h, hh.resolve_left earlier, by rwa [inHand h earlier]⟩

/-- An entry with prior state `p` goes back, its target, if it is MOVING, having been emptied. -/
theorem backTo {s u : State} {h : Handle} {p : Prior} (held : (s.entry h).heldAs p) (entries : u.entries = s.entries)
    (engines : u.engines = s.engines) (silent : s.Told u (fun _ => False) fun _ => False)
    (maps : ∀ g a, ((s.entry h).segment = g ∧ (∃ p, (s.entry h).state = .moving p a) → u.mapSlot g a = .empty) ∧
      (¬ ((s.entry h).segment = g ∧ ∃ p, (s.entry h).state = .moving p a) → u.mapSlot g a = s.mapSlot g a)) :
    s.Returns (u.backTo h p (s.entry h).silence) s.threshold (· = h) := by
  have entry (k : Handle) : u.entry k = s.entry k := by rw [State.entry, entries, State.entry]
  have threshold : u.threshold = s.threshold := by funext g; rw [State.threshold, State.engine, engines, State.threshold, State.engine]
  obtain ⟨segment, -, watches⟩ := (s.entry h).cameBack_facts p (s.threshold (s.entry h).segment)
  have back := u.backTo_cameBack h p
  rw [entry, threshold] at back
  let came := (s.entry h).cameBack p (s.threshold (s.entry h).segment)
  have moved : s.Told (u.moved h came) (· = h) fun _ => False :=
    (silent.trans (.moved u fun q => by rw [entry]; exact watches q)).congr (fun _ => ⟨fun e => e.elim False.elim id, .inr⟩) fun _ => or_self_iff
  have hand : (s.entry h).inHand := (s.entry h).inHand_iff_heldAs.2 ⟨p, held⟩
  have lapses := Entry.lapses_iff held (s.threshold (s.entry h).segment)
  have effect (t : State) (entries' : ∀ k, t.entry k = (u.moved h came).entry k)
      (maps' : ∀ g a, t.mapSlot g a = u.mapSlot g a) : s.returnsTo t s.threshold (· = h) := by
    refine ⟨fun k => ⟨fun hk => ?_, fun hk => ?_⟩, fun g a => ⟨fun freed => ?_, fun stays => ?_⟩⟩
    · subst hk
      rw [entries', State.moved_entry_same, entry, Entry.returned_held held]
    · rw [entries', State.moved_entry_ne _ _ _ _ hk, entry]
    · obtain ⟨_, p', rfl, here, moving⟩ := freed
      rw [maps']
      exact (maps g a).1 ⟨here, p', moving⟩
    · rw [maps']
      exact (maps g a).2 fun ⟨here, p', moving⟩ => stays ⟨h, p', rfl, here, moving⟩
  rw [back]
  split
  · rename_i falls
    refine ⟨effect _ (fun _ => rfl) fun _ _ => rfl, (moved.trans (.noticed _ _)).congr (fun k => ?_) fun k => ?_⟩
    · rw [or_false]
      exact ⟨fun e => ⟨e, e ▸ hand⟩, And.left⟩
    · rw [false_or]
      exact ⟨fun e => ⟨e, h, rfl, lapses.2 falls⟩, And.left⟩
  · rename_i stands
    refine ⟨effect _ (fun _ => rfl) fun _ _ => rfl, moved.congr (fun k => ⟨fun e => ⟨e, e ▸ hand⟩, And.left⟩) fun k => ?_⟩
    exact ⟨False.elim, fun ⟨_, _, e, falls⟩ => stands (lapses.1 (e ▸ falls))⟩

/-- One entry returned. -/
theorem returnEntry (s : State) (h : Handle) : s.Returns (s.returnEntry h) s.threshold (· = h) := by
  by_cases hand : (s.entry h).inHand
  · rcases hand with ⟨p, a, moving⟩ | ⟨p, f, retiring⟩
    · have held : (s.entry h).heldAs p := .inl ⟨a, moving⟩
      rw [State.returnEntry_moving moving]
      refine backTo held (State.setMap_entries ..) (State.setMap_engines ..) ?_ fun g b => ?_
      · exact .setMap ..
      · rw [State.setMap_mapSlot]
        refine ⟨fun ⟨here, p', same⟩ => ?_, fun other => if_neg fun ⟨here, same, _⟩ => other ⟨here.symm, p, same ▸ moving⟩⟩
        have target : b = a := by
          rw [moving] at same
          cases same
          rfl
        subst here target
        by_cases line : (mapIx b).isSome = true
        · exact if_pos ⟨rfl, rfl, line⟩
        · rw [if_neg fun e => line e.2.2]
          unfold State.mapSlot
          rw [Option.not_isSome_iff_eq_none.1 line]
    · have held : (s.entry h).heldAs p := .inr ⟨f, retiring⟩
      have returns : s.returnEntry h = s.backTo h p (s.entry h).silence := by
        rw [State.returnEntry, retiring]
        exact State.restore_eq _ h p _ (.inr ⟨p, f, retiring⟩)
      rw [returns]
      refine backTo held rfl rfl (.refl s) fun g b => ⟨fun ⟨_, _, moving⟩ => ?_, fun _ => rfl⟩
      rw [moving] at retiring
      cases retiring
  · have stays : s.returnEntry h = s := by
      unfold State.returnEntry
      split
      · exact absurd (.inl ⟨_, _, ‹_›⟩) hand
      · exact absurd (.inr ⟨_, _, ‹_›⟩) hand
      all_goals rfl
    rw [stays]
    refine ⟨⟨fun k => ⟨fun e => ?_, fun _ => rfl⟩, fun g a => ⟨fun ⟨k, p, e, _, moving⟩ => ?_, fun _ => rfl⟩⟩,
      (State.Told.refl s).congr (fun k => ⟨False.elim, fun ⟨e, no⟩ => hand (e ▸ no)⟩)
        fun k => ⟨False.elim, fun ⟨_, k, e, lapses⟩ => hand (e ▸ Entry.lapses_inHand lapses)⟩⟩
    · rw [e, Entry.returned_free hand]
    · exact absurd (.inl ⟨p, a, e ▸ moving⟩) hand

theorem returnItem (s : State) (x : QueueItem) : s.Returns (s.returnItem x) s.threshold (x.holds ·) := by
  have holds (k : Handle) : x.holds k ↔ x.entry = some k ∧ x.req.changesEntry = true := by
    refine and_congr_right fun _ => ?_
    cases x.req <;> simp [LineReq.changesEntry]
  unfold State.returnItem
  cases he : x.entry with
  | none => exact (refl s _).congr fun k => by rw [holds, he]; simp
  | some h =>
    dsimp only
    split
    · rename_i changes
      exact (returnEntry s h).congr fun k => by rw [holds, he]; simp [changes, eq_comm]
    · rename_i reads
      exact (refl s _).congr fun k => by rw [holds]; simp [reads]

/-- The entries of a list of removed requests returned. -/
theorem returnItems (s : State) (l : List QueueItem) : s.Returns (s.returnItems l) s.threshold fun h => ∃ x ∈ l, x.holds h := by
  induction l generalizing s with
  | nil => exact (refl s _).congr fun k => by simp
  | cons x l ih =>
    have first := returnItem s x
    have threshold : (s.returnItem x).threshold = s.threshold := by
      funext g
      rw [State.threshold, State.engine, State.returnItem_engines, State.threshold, State.engine]
    have more := ih (s.returnItem x)
    rw [threshold] at more
    exact (first.trans more).congr fun k => by simp

end State.Returns

/-! ### What the statements say of returned entries -/

/-- The notice units say what a told event has told them. -/
theorem State.Told.returnsTold {s u t : State} {T : Seg → Nat} {given : Handle → Prop} {more : BitVec 13}
    (told : s.Told u (fun h => given h ∧ (s.entry h).inHand)
      fun k => more.getLsbD k = true ∨ (k = 4 ∧ ∃ h, given h ∧ (s.entry h).lapses (T (s.entry h).segment)))
    {q : PortId} (notices : (t.port q).notices = (u.port q).notices) : s.returnsTold t T given q more := by
  unfold State.returnsTold
  rw [notices]
  exact ⟨told.mask q, fun h => (told.changed q h).trans (or_congr_right and_assoc), fun k hk => told.sticky q k hk⟩

theorem State.wakesTo.congr {s s' t t' : State} {handed : Handle → Prop} {raised : Nat → Prop} (h : s.wakesTo t handed raised)
    (entries : ∀ k q, (s'.entry k).watches q = (s.entry k).watches q)
    (masks : ∀ q, (s'.port q).notices.mask = (s.port q).notices.mask) (before : s'.runState = s.runState)
    (after : t'.runState = t.runState) : s'.wakesTo t' handed raised := by
  unfold State.wakesTo
  simp only [entries, masks, before, after]
  exact h

/-- The part that runs keeps running (R207). -/
theorem State.wakesTo.run {s t : State} {handed : Handle → Prop} {raised : Nat → Prop} (h : s.wakesTo t handed raised)
    (run : s.runState = .run) : t.runState = .run := by
  obtain ⟨wakes, sleeps⟩ := h
  by_contra no
  refine no ((sleeps fun woken => no ?_).trans run)
  rw [wakes woken, run]
  rfl

end Sys2Proof.Machine
end

section
/-! PROOFS. PORT_RESET (R28, R94, R100, R175, R176, R188). -/

namespace Sys2Proof.Machine

/-! ### PORT_RESET -/

theorem State.portReset_eq (s : State) (p : PortId) :
    s.portReset p = ((s.portDropped p).returnItems (allSegments.flatMap (s.queuedOf p))).updPort p PortState.cleared := rfl

/-- The request of a reset port runs on without a slot (R100). -/
theorem Activity.orphan_eq (a : Activity) (p : PortId) :
    a.orphan p = { a with owner := a.owner.map fun o => if o.port = p then { o with slot := none } else o } := by
  obtain ⟨w, o, n⟩ := a
  cases o with
  | none => rfl
  | some o =>
    unfold Activity.orphan
    dsimp only
    split
    · rename_i same
      simp [same]
    · rename_i other
      simp [other]

theorem mem_queuedItems (s : State) (p : PortId) (x : QueueItem) :
    x ∈ allSegments.flatMap (s.queuedOf p) ↔ ∃ g, x ∈ (s.engine g).queue ∧ x.port = p := by
  simp [State.queuedOf, mem_allSegments]

/-- Settles O20: the port's own registers, the engines it leaves, and the return of its entries. -/
theorem portResetEmptiesItsPort : Obligations.PortResetEmptiesItsPort := by
  intro s p x tag body more hx run small left given
  let sent := (requestFrame .portReset tag body).flatMap byteBits ++ more
  let s1 := s.setPort p (s.delivered p x sent.length)
  let t0 := s1.portDropped p
  let r := t0.returnItems (allSegments.flatMap (s1.queuedOf p))
  have frame : judgeFrame (bytesOfBits sent) = .frame { kind := .portReset, tag := tag, body := body } := by
    rw [bytesOfBits_flatMap, judgeFrame_requestFrame .portReset tag small]
  have judged : s1.judge p sent = (s1.portReset p, .taken) := by
    rw [State.judge_frame frame]
    unfold State.takeFrame
    rw [if_neg (by simp [s1, run, RunState.takes]), if_pos rfl]
  have returns : t0.Returns r s.threshold given := by
    have items := State.Returns.returnItems t0 (allSegments.flatMap (s1.queuedOf p))
    rw [funext (s1.portDropped_threshold p), show s1.threshold = s.threshold from funext fun g => by simp [State.threshold, s1]] at items
    refine items.congr fun h => ?_
    constructor
    · rintro ⟨q, hq, holds⟩
      obtain ⟨g, hq, port⟩ := (mem_queuedItems s1 p q).1 hq
      exact ⟨g, q, by simpa [s1] using hq, port, holds⟩
    · rintro ⟨g, q, hq, port, holds⟩
      exact ⟨q, (mem_queuedItems s1 p q).2 ⟨g, by simpa [s1] using hq, port⟩, holds⟩
  have entries : t0.entries = left.entries := by simp [t0, State.portDropped, s1]; rfl
  have entry (h : Handle) : t0.entry h = left.entry h := by rw [State.entry, entries, State.entry]
  have mapSlot (g : Seg) (a : Byte) : t0.mapSlot g a = left.mapSlot g a := by simp [State.mapSlot, t0, State.portDropped, s1]; rfl
  let y := PortState.cleared (r.port p)
  let t := r.setPort p { y with previous := .taken, exchange := none }
  refine ⟨t, ?_, ?_⟩
  · rw [exec_exchangeEnd hx, State.endExchange_of_judge judged, State.portReset_eq, State.updPort_eq, State.setPort_port_same,
      State.setPort_setPort]
  have rest := returns.told.rest
  have other : t.port p.other = r.port p.other := by simp [t]
  have other0 : t0.port p.other = s.port p.other := by
    have : t0.port p.other = s1.port p.other := by cases p <;> rfl
    rw [this]
    simp [s1]
  have own : t.port p = { y with previous := .taken, exchange := none } := by simp [t]
  have leftOther : left.port p.other = t0.port p.other := by rw [other0]; cases p <;> rfl
  have runs : r.runState = .run := returns.told.wakes.run (by rw [show t0.runState = s1.runState from rfl]; simp [s1, run])
  have kept : t.setup = s.setup ∧ t.seeding = s.seeding ∧ t.prescaler = s.prescaler ∧ t.freeCount = s.freeCount := by
    simp only [t, State.setPort_setup, State.setPort_seeding, State.setPort_prescaler, State.setPort_freeCount]
    rw [rest]
    simp [t0, State.portDropped, s1]
  obtain ⟨setup, seeding, prescaler, freeCount⟩ := kept
  refine ⟨by simp [t, runs], setup, seeding, prescaler, freeCount, fun i => ?_, by rw [own]; rfl, by rw [own]; rfl, by rw [own]; rfl,
    by rw [own], by rw [own], by rw [own]; rfl, by rw [own]; rfl, fun h => ?_, ⟨(r.port p.other).notices, ?_⟩, ?_, ?_, fun g => ?_⟩
  · rw [State.slot, own]
    simp [y, PortState.cleared]
  · rw [own]
    simp [y, PortState.cleared, resetNotices]
  · rw [other, returns.told.port, other0]
  · have told : t0.returnsTold t s.threshold given p.other 0 := by
      refine (returns.told.congr (fun _ => .rfl) fun k => ?_).returnsTold (congrArg PortState.notices other)
      simp
    unfold State.returnsTold at told ⊢
    simp only [← entry, leftOther]
    exact told
  · obtain ⟨one, two⟩ := returns.effect
    unfold State.returnsTo
    simp only [← entry, ← mapSlot]
    exact ⟨fun h => by rw [State.setPort_entry]; exact one h, fun g a => by rw [State.setPort_mapSlot]; exact two g a⟩
  · have engine : t.engine g = t0.engine g := by
      rw [State.setPort_engine, State.engine, State.returnItems_engines, State.engine]
    rw [engine, State.portDropped_engine, State.setPort_engine, Engine.dropPort]
    simp only [Activity.orphan_eq]

end Sys2Proof.Machine
end

section
/-! PROOFS. The answers of a queue that empties (R91, R95). -/

namespace Sys2Proof.Machine

/-! ### The answers of a queue that empties -/

/-- The answers to removed requests, with the generations of state `u` (R91, R95). -/
def State.itemAnswers (u : State) (c : Status) (r : EndReason) (items : List QueueItem) : List (PortId × SlotIx × Answer) :=
  items.map fun x => (x.port, x.slot, { status := c, generation := u.itemGeneration x.entry, body := x.req.refusalBody r })

/-- The answer to port `p`'s request that waits for the queue of segment `g`, if there is one (R91, R95). -/
def State.waiterAnswers (u : State) (g : Seg) (c : Status) (p : PortId) : List (PortId × SlotIx × Answer) :=
  match u.waitingFor g p with
  | some (i, q) =>
    [(p, i, { status := c, generation := u.itemGeneration (q.handle?.bind handleOf), body := q.refusalBody .none })]
  | none => []

theorem State.itemGeneration_congr {s t : State} (entries : t.entries = s.entries) (h : Option Handle) :
    t.itemGeneration h = s.itemGeneration h := by
  unfold State.itemGeneration State.entry
  rw [entries]

theorem State.answerItems_eq (u : State) (c : Status) (r : EndReason) (items : List QueueItem) :
    u.answerItems c r items = u.answering (u.itemAnswers c r items) := by
  have general (items : List QueueItem) : ∀ t : State, t.entries = u.entries →
      t.answerItems c r items = t.answering (u.itemAnswers c r items) := by
    induction items with
    | nil => exact fun _ _ => rfl
    | cons x l ih =>
      intro t entries
      have step : t.answerItem c r x = t.finish x.port x.slot
          { status := c, generation := u.itemGeneration x.entry, body := x.req.refusalBody r } := by
        rw [State.answerItem, State.itemGeneration_congr entries]
      have more := ih (t.answerItem c r x) (by rw [step, State.finish_entries, entries])
      rw [step] at more
      exact (congrArg (fun v : State => v.answerItems c r l) step).trans more
  exact general items u rfl

theorem State.finishWaiting_eq (u : State) (g : Seg) (c : Status) (p : PortId) :
    u.finishWaiting g c p = u.answering (u.waiterAnswers g c p) := by
  unfold State.finishWaiting State.waiterAnswers
  cases u.waitingFor g p with
  | none => rfl
  | some y =>
    obtain ⟨i, q⟩ := y
    rfl

/-- The answers of a flush from state `u`, `carried` being that of the request on the line (R91, R95; log 14). -/
def State.flushAnswers (u : State) (g : Seg) (c : Status) (r : EndReason) (items : List QueueItem)
    (carried : List (PortId × SlotIx × Answer)) : List (PortId × SlotIx × Answer) :=
  carried ++ u.itemAnswers c r items ++ u.waiterAnswers g c .a ++ u.waiterAnswers g c .b

/-- What waits for a queue depends on the slots of a WAITING list alone (R78). -/
theorem State.waitingFor_listed {s t : State} {p : PortId} (waiting : (t.port p).waiting = (s.port p).waiting)
    (waitsFor : (t.port p).waitsFor = (s.port p).waitsFor) (slot : ∀ j ∈ (s.port p).waiting, t.slot p j = s.slot p j)
    (entries : t.entries = s.entries) (g : Seg) : t.waitingFor g p = s.waitingFor g p := by
  have head : t.head? p = s.head? p := by
    unfold State.head?
    rw [waiting]
    cases hw : (s.port p).waiting with
    | nil => rfl
    | cons i rest =>
      dsimp only
      rw [slot i (by rw [hw]; exact List.mem_cons_self ..)]
  unfold State.waitingFor State.entry
  rw [head, waitsFor, entries]

/-- Answers that touch no WAITING request leave what waits for a queue, and its answer. -/
theorem State.waiterAnswers_answering {u : State} {l : List (PortId × SlotIx × Answer)} (answerable : u.answerable l) {p : PortId}
    (apart : ∀ i, (p, i) ∈ askedSlots l → i ∉ (u.port p).waiting) (g : Seg) (c : Status) :
    (u.answering l).waiterAnswers g c p = u.waiterAnswers g c p := by
  obtain ⟨waiting, -, waitsFor⟩ := State.answering_lists answerable p
  have all : ((u.answering l).port p).waiting = (u.port p).waiting := by
    rw [waiting, List.filter_eq_self]
    exact fun i hi => by simpa using fun asked => apart i asked hi
  have still : ((u.answering l).port p).waitsFor = (u.port p).waitsFor := by
    rw [waitsFor, if_neg]
    rintro ⟨i, head, asked⟩
    exact apart i asked (List.mem_of_mem_head? head)
  have same : (u.answering l).waitingFor g p = u.waitingFor g p :=
    State.waitingFor_listed all still (fun j hj => State.answering_slot_ne u fun asked => apart j asked hj) (State.answering_entries ..) g
  have generation (h : Option Handle) : (u.answering l).itemGeneration h = u.itemGeneration h :=
    State.itemGeneration_congr (State.answering_entries ..) h
  unfold State.waiterAnswers
  simp only [same, generation]

theorem State.itemAnswers_answering (u : State) (l : List (PortId × SlotIx × Answer)) (c : Status) (r : EndReason)
    (items : List QueueItem) : (u.answering l).itemAnswers c r items = u.itemAnswers c r items := by
  have generation (h : Option Handle) : (u.answering l).itemGeneration h = u.itemGeneration h :=
    State.itemGeneration_congr (State.answering_entries ..) h
  unfold State.itemAnswers
  simp only [generation]

theorem askedSlots_append (l l' : List (PortId × SlotIx × Answer)) : askedSlots (l ++ l') = askedSlots l ++ askedSlots l' :=
  List.map_append ..

theorem State.answerable.left {s : State} {l l' : List (PortId × SlotIx × Answer)} (h : s.answerable (l ++ l')) : s.answerable l := by
  obtain ⟨distinct, held⟩ := h
  rw [askedSlots_append] at distinct held
  exact ⟨(List.nodup_append.1 distinct).1, fun x hx => held x (List.mem_append_left _ hx)⟩

theorem State.mem_waiterAnswers {u : State} {g : Seg} {c : Status} {p q : PortId} {i : SlotIx} :
    (q, i) ∈ askedSlots (u.waiterAnswers g c p) ↔ q = p ∧ ∃ x, u.waitingFor g p = some (i, x) := by
  unfold State.waiterAnswers
  split
  · rename_i j x h
    simp [askedSlots, h, eq_comm]
  · rename_i h
    simp [askedSlots, h]

/-- The removed requests and the one on the line. -/
def State.linedAnswers (u : State) (c : Status) (r : EndReason) (items : List QueueItem)
    (carried : List (PortId × SlotIx × Answer)) : List (PortId × SlotIx × Answer) := carried ++ u.itemAnswers c r items

/-- What a flush answers, when it answers each request once. -/
theorem State.flush_eq {u : State} {g : Seg} {c : Status} {r : EndReason} {items : List QueueItem} {f : State → State}
    {carried : List (PortId × SlotIx × Answer)} (hf : f u = u.answering carried)
    (answerable : u.answerable (u.flushAnswers g c r items carried))
    (apart : ∀ p i, (p, i) ∈ askedSlots (u.linedAnswers c r items carried) → i ∉ (u.port p).waiting) :
    (((f u).answerItems c r items).finishWaiting g c .a).finishWaiting g c .b =
      u.answering (u.flushAnswers g c r items carried) := by
  have first : (f u).answerItems c r items = u.answering (u.linedAnswers c r items carried) := by
    rw [hf, State.answerItems_eq, State.itemAnswers_answering, ← State.answering_append, State.linedAnswers]
  have lined : u.answerable (u.linedAnswers c r items carried) := answerable.left.left
  have second : u.answerable (u.linedAnswers c r items carried ++ u.waiterAnswers g c .a) := answerable.left
  rw [first, State.finishWaiting_eq _ g c .a, State.waiterAnswers_answering lined (apart .a), ← State.answering_append,
    State.finishWaiting_eq, State.waiterAnswers_answering second, ← State.answering_append]
  · rfl
  · intro i asked
    rw [askedSlots_append, List.mem_append] at asked
    exact asked.elim (apart .b i) fun other => absurd (State.mem_waiterAnswers.1 other).1 (by simp)

/-- Whatever a flush answers, it only answers. -/
theorem State.flush_answers {u : State} (g : Seg) (c : Status) (r : EndReason) (items : List QueueItem) {f : State → State}
    (hf : ∃ l, f u = u.answering l) :
    ∃ l, (((f u).answerItems c r items).finishWaiting g c .a).finishWaiting g c .b = u.answering l := by
  obtain ⟨l, hl⟩ := hf
  rw [hl, State.answerItems_eq, State.finishWaiting_eq _ g c .a, State.finishWaiting_eq _ g c .b, ← State.answering_append,
    ← State.answering_append, ← State.answering_append]
  exact ⟨_, rfl⟩

/-! ### Answers over a told event -/

theorem State.Told.slot {s u : State} {handed : Handle → Prop} {raised : Nat → Prop} (told : s.Told u handed raised) (q : PortId)
    (i : SlotIx) : u.slot q i = s.slot q i := by
  rw [State.slot, told.port, State.slot]

theorem State.Told.answerable {s u : State} {handed : Handle → Prop} {raised : Nat → Prop} (told : s.Told u handed raised)
    (l : List (PortId × SlotIx × Answer)) : u.answerable l ↔ s.answerable l := by
  unfold State.answerable
  simp only [told.slot]

/-- The requests of the list are answered, and no other (R169, R172). -/
theorem State.Told.answersOnly {s u : State} {handed : Handle → Prop} {raised : Nat → Prop} (told : s.Told u handed raised)
    {l : List (PortId × SlotIx × Answer)} (h : s.answerable l) {asked : PortId → SlotIx → Prop}
    (names : ∀ q i, asked q i ↔ (q, i) ∈ askedSlots l) (g : Seg) (f : Engine → Engine) :
    s.answersOnly ((u.answering l).updEngine g f) asked := by
  have rest := told.rest
  have frame := u.answering_frame l
  have fields : (u.answering l).seeding = s.seeding ∧ (u.answering l).setup = s.setup ∧ (u.answering l).prescaler = s.prescaler ∧
      (u.answering l).freeCount = s.freeCount ∧ (u.answering l).pending = s.pending := by
    rw [frame, rest]
    exact ⟨rfl, rfl, rfl, rfl, rfl⟩
  obtain ⟨seeding, setup, prescaler, freeCount, pending⟩ := fields
  refine ⟨seeding, setup, prescaler, freeCount, pending, fun q => ?_⟩
  obtain ⟨-, previous, exchange⟩ := u.answering_port l q
  obtain ⟨waiting, completed, waitsFor⟩ := State.answering_lists ((told.answerable l).2 h) q
  rw [told.port] at previous exchange waiting completed waitsFor
  rw [State.updEngine_port, waiting, completed, waitsFor]
  simp only [names]
  refine ⟨previous, exchange, fun i other => ?_, List.filter_sublist, fun i => by simp, fun head => if_pos head,
    fun other => if_neg other, List.prefix_append ..⟩
  rw [State.updEngine_slot, State.answering_slot_ne _ other, told.slot]

end Sys2Proof.Machine
end

section
/-! PROOFS. Which requests a flush answers, each in a slot of its own (R91, R95, R168, R169). -/

namespace Sys2Proof.Machine

/-! ### Which requests a flush answers -/

theorem State.askedSlots_itemAnswers (s u : State) (g : Seg) (c : Status) (r : EndReason) :
    askedSlots (u.itemAnswers c r (s.engine g).queue) = s.queuedSlots g := by
  simp [askedSlots, State.itemAnswers, State.queuedSlots, Function.comp_def]

theorem State.waitingFor_head {s : State} {g : Seg} {p : PortId} {i : SlotIx} {q : LineReq} (h : s.waitingFor g p = some (i, q)) :
    (s.port p).waiting.head? = some i := by
  unfold State.waitingFor at h
  split at h
  · rename_i j r g0 hhead _
    have hj : j = i := by
      split at h
      · dsimp only at h
        (repeat' split at h) <;> simp_all
      · cases h
    subst hj
    unfold State.head? at hhead
    split at hhead
    · cases hhead
    · rename_i listed
      rw [listed]
      split at hhead <;> simp_all
  · cases h

theorem State.answerable.append {s : State} {l l' : List (PortId × SlotIx × Answer)} (h : s.answerable l) (h' : s.answerable l')
    (apart : ∀ x ∈ askedSlots l, x ∉ askedSlots l') : s.answerable (l ++ l') := by
  unfold State.answerable
  rw [askedSlots_append]
  refine ⟨List.nodup_append'.2 ⟨h.1, h'.1, fun x hx hx' => apart x hx hx'⟩, fun x hx => ?_⟩
  exact (List.mem_append.1 hx).elim (h.2 x) (h'.2 x)

/-- The requests of a segment's queue, each in a slot of its own. -/
theorem State.slotsAgree.queued {s : State} (agree : s.slotsAgree) (g : Seg) :
    (s.queuedSlots g).Nodup ∧ ∀ x ∈ s.queuedSlots g, ∃ r, s.slot x.1 x.2 = .dispatched r := by
  obtain ⟨-, distinct, -, dispatched, -⟩ := agree
  exact ⟨(List.nodup_flatMap.1 distinct).1 g (mem_allSegments g), dispatched g⟩

/-- A WAITING list holds no request that is DISPATCHED or on the line. -/
theorem State.slotsAgree.waiting {s : State} (agree : s.slotsAgree) {p : PortId} {i : SlotIx} (listed : i ∈ (s.port p).waiting) :
    ∃ r, s.slot p i = .waiting r := ((agree.1 p).2.2 i).1.1 listed

/-- What a flush answers stands in slots of its own (R168, R169). -/
theorem State.slotsAgree.answerable_lined {s u : State} (agree : s.slotsAgree) (g : Seg) (c : Status) (r : EndReason)
    {carried attached : List (PortId × SlotIx × Answer)} (distinct : (askedSlots carried ++ askedSlots attached).Nodup)
    (onLine : ∀ x ∈ askedSlots carried ++ askedSlots attached, ∃ r, s.slot x.1 x.2 = .onLine r) :
    s.answerable (u.linedAnswers c r (s.engine g).queue carried ++ attached) := by
  obtain ⟨distinctQ, dispatched⟩ := agree.queued g
  obtain ⟨distinctC, distinctA, apart⟩ := List.nodup_append'.1 distinct
  have names := State.askedSlots_itemAnswers s u g c r
  have line (x : PortId × SlotIx) (hx : x ∈ askedSlots carried ∨ x ∈ askedSlots attached) : x ∉ s.queuedSlots g := fun hq => by
    obtain ⟨r, h⟩ := onLine x (List.mem_append.2 hx)
    obtain ⟨r', h'⟩ := dispatched x hq
    rw [h] at h'
    cases h'
  have queue : s.answerable (u.itemAnswers c r (s.engine g).queue) := by
    unfold State.answerable
    rw [names]
    refine ⟨distinctQ, fun x hx => ?_⟩
    obtain ⟨r, h⟩ := dispatched x hx
    exact ⟨r, by rw [h]; rfl⟩
  have carriedOk : s.answerable carried := ⟨distinctC, fun x hx => by
    obtain ⟨r, h⟩ := onLine x (List.mem_append_left _ hx)
    exact ⟨r, by rw [h]; rfl⟩⟩
  have attachedOk : s.answerable attached := ⟨distinctA, fun x hx => by
    obtain ⟨r, h⟩ := onLine x (List.mem_append_right _ hx)
    exact ⟨r, by rw [h]; rfl⟩⟩
  refine (carriedOk.append queue fun x hx => by rw [names]; exact line x (.inl hx)).append attachedOk fun x hx => ?_
  rw [askedSlots_append, List.mem_append, names] at hx
  exact hx.elim (fun h h' => apart h h') fun h h' => line x (.inr h') h

/-- The waiting requests that a flush answers, and others that wait. -/
theorem State.answerable_waiters {s u : State} {g : Seg} (waits : ∀ q, u.waitingFor g q = s.waitingFor g q) (c : Status)
    {last : List (PortId × SlotIx × Answer)} (distinct : (askedSlots last).Nodup)
    (waiting : ∀ x ∈ askedSlots last, (∃ r, s.slot x.1 x.2 = .waiting r) ∧ ∀ y, s.waitingFor g x.1 ≠ some (x.2, y)) :
    s.answerable (u.waiterAnswers g c .a ++ u.waiterAnswers g c .b ++ last) ∧
      ∀ x ∈ askedSlots (u.waiterAnswers g c .a ++ u.waiterAnswers g c .b ++ last), ∃ r, s.slot x.1 x.2 = .waiting r := by
  have names (p : PortId) (x : PortId × SlotIx) (hx : x ∈ askedSlots (u.waiterAnswers g c p)) :
      x.1 = p ∧ ∃ y, s.waitingFor g x.1 = some (x.2, y) := by
    obtain ⟨hp, y, hy⟩ := State.mem_waiterAnswers.1 hx
    exact ⟨hp, y, by rw [← waits, hp, hy]⟩
  have one (p : PortId) : s.answerable (u.waiterAnswers g c p) := by
    refine ⟨?_, fun x hx => ?_⟩
    · unfold State.waiterAnswers
      split <;> simp [askedSlots]
    · obtain ⟨-, y, hy⟩ := names p x hx
      obtain ⟨r, h⟩ := State.waitingFor_slot hy
      exact ⟨r, by rw [h]; rfl⟩
  have lastOk : s.answerable last := ⟨distinct, fun x hx => by
    obtain ⟨⟨r, h⟩, -⟩ := waiting x hx
    exact ⟨r, by rw [h]; rfl⟩⟩
  refine ⟨((one .a).append (one .b) fun x hx hx' => ?_).append lastOk fun x hx hx' => ?_, fun x hx => ?_⟩
  · exact absurd ((names .a x hx).1.symm.trans (names .b x hx').1) (by simp)
  · rw [askedSlots_append, List.mem_append] at hx
    obtain ⟨y, hy⟩ : ∃ y, s.waitingFor g x.1 = some (x.2, y) := hx.elim (fun h => (names .a x h).2) fun h => (names .b x h).2
    exact (waiting x hx').2 y hy
  · rw [askedSlots_append, askedSlots_append, List.mem_append, List.mem_append] at hx
    obtain (h | h) | h := hx
    · obtain ⟨-, y, hy⟩ := names .a x h
      exact State.waitingFor_slot hy
    · obtain ⟨-, y, hy⟩ := names .b x h
      exact State.waitingFor_slot hy
    · exact (waiting x h).1

theorem State.answerable.perm {s : State} {l l' : List (PortId × SlotIx × Answer)} (h : s.answerable l) (same : l.Perm l') :
    s.answerable l' := by
  have names : (askedSlots l).Perm (askedSlots l') := same.map _
  exact ⟨names.nodup_iff.1 h.1, fun x hx => h.2 x (names.mem_iff.2 hx)⟩

/-- Every request of a segment that stops taking any: the one on the line, the queue's, those that wait for it, those attached to
the pass, and then others that wait elsewhere (R91, R95). -/
theorem State.slotsAgree.answerable_flush {s u : State} (agree : s.slotsAgree) {g : Seg}
    (waits : ∀ q, u.waitingFor g q = s.waitingFor g q) (c : Status) (r : EndReason)
    {carried attached last : List (PortId × SlotIx × Answer)} (distinct : (askedSlots carried ++ askedSlots attached).Nodup)
    (onLine : ∀ x ∈ askedSlots carried ++ askedSlots attached, ∃ r, s.slot x.1 x.2 = .onLine r)
    (distinct' : (askedSlots last).Nodup)
    (waiting : ∀ x ∈ askedSlots last, (∃ r, s.slot x.1 x.2 = .waiting r) ∧ ∀ y, s.waitingFor g x.1 ≠ some (x.2, y)) :
    s.answerable (u.flushAnswers g c r (s.engine g).queue carried ++ attached ++ last) := by
  obtain ⟨waiters, wait⟩ := State.answerable_waiters waits c distinct' waiting
  have lined := agree.answerable_lined (u := u) g c r distinct onLine
  refine (lined.append waiters fun x hx hx' => ?_).perm ?_
  · obtain ⟨held, h⟩ := wait x hx'
    have busy : (∃ r, s.slot x.1 x.2 = .onLine r) ∨ ∃ r, s.slot x.1 x.2 = .dispatched r := by
      rw [askedSlots_append, State.linedAnswers, askedSlots_append, List.mem_append, List.mem_append,
        State.askedSlots_itemAnswers s u g c r] at hx
      obtain (hc | hq) | ha := hx
      · exact .inl (onLine x (List.mem_append_left _ hc))
      · exact .inr ((agree.queued g).2 x hq)
      · exact .inl (onLine x (List.mem_append_right _ ha))
    rcases busy with ⟨r', h'⟩ | ⟨r', h'⟩ <;> rw [h] at h' <;> cases h'
  · have swap : (attached ++ (u.waiterAnswers g c .a ++ u.waiterAnswers g c .b)).Perm
        ((u.waiterAnswers g c .a ++ u.waiterAnswers g c .b) ++ attached) := List.perm_append_comm
    have all := (swap.append_left (u.linedAnswers c r (s.engine g).queue carried)).append_right last
    unfold State.flushAnswers
    simpa only [List.append_assoc, State.linedAnswers] using all

end Sys2Proof.Machine
end

section
/-! PROOFS. What the statements say of the answers of a flush (R91, R95, R121, R138). -/

namespace Sys2Proof.Machine

/-! ### What the statements say of the answers of a flush -/

theorem LineReq.refusalBody_eq (q : LineReq) (r : EndReason) : q.refusalBody r = q.unrunBody r.code := by cases q <;> rfl

section
variable {s u : State} {handed : Handle → Prop} {raised : Nat → Prop} (told : s.Told u handed raised)
  {l : List (PortId × SlotIx × Answer)} (ok : s.answerable l) (f : Engine → Engine) (g k : Seg)
include told ok

/-- A request of the list stands answered. -/
theorem State.Told.answered_slot {q : PortId} {j : SlotIx} {b : Answer} (m : (q, j, b) ∈ l) {r : Request}
    (hr : (s.slot q j).request? = some r) :
    ((u.answering l).updEngine k f).slot q j = .completed r (r.reply b.status b.generation b.body) := by
  rw [State.updEngine_slot, State.answering_slot ((told.answerable l).2 ok) m (by rw [told.slot, hr])]
  rfl

/-- The queue's requests stand answered, oldest first (R91, R95). -/
theorem State.Told.queueAnswered (agree : s.slotsAgree) (c : Status) (r : EndReason)
    (sub : (u.itemAnswers c r (s.engine g).queue).Sublist l) : s.queueAnswered ((u.answering l).updEngine k f) g c r.code := by
  refine ⟨fun x hx => ?_, fun q => ?_⟩
  · obtain ⟨r', dispatched⟩ := (agree.queued g).2 _ (List.mem_map_of_mem hx)
    refine ⟨r', dispatched, ?_⟩
    have m := sub.subset (List.mem_map_of_mem (f := fun x : QueueItem => (x.port, x.slot,
      ({ status := c, generation := u.itemGeneration x.entry, body := x.req.refusalBody r } : Answer))) hx)
    rw [told.answered_slot ok f k m (by rw [dispatched]; rfl), LineReq.refusalBody_eq]
    congr 2
    cases x.entry with
    | none => rfl
    | some h => exact congrArg Entry.generation ((State.updEngine_entry ..).trans (State.answering_entry ..)).symm
  · obtain ⟨-, completed, -⟩ := State.answering_lists ((told.answerable l).2 ok) q
    rw [State.updEngine_port, completed]
    refine List.Sublist.trans ?_ (List.sublist_append_right ..)
    have names := (sub.map fun x => (x.1, x.2.1)).filter (·.1 == q) |>.map Prod.snd
    have same : (((s.engine g).queue.filter fun x => x.port == q).map QueueItem.slot) =
        List.map Prod.snd (List.filter (·.1 == q) (askedSlots (u.itemAnswers c r (s.engine g).queue))) := by
      rw [State.askedSlots_itemAnswers, State.queuedSlots, List.filter_map, List.map_map]
      rfl
    rw [same]
    exact names

/-- The requests that wait for the queue stand answered (R91, R95, R121). -/
theorem State.Told.waitersAnswered (c : Status) (waits : ∀ q, u.waitingFor g q = s.waitingFor g q)
    (sub : ∀ q, ∀ x ∈ u.waiterAnswers g c q, x ∈ l) : s.waitersAnswered ((u.answering l).updEngine k f) g c := by
  intro q i x waiting
  obtain ⟨r, slot⟩ := State.waitingFor_slot waiting
  have head := State.waitingFor_head waiting
  have m : (q, i, ({ status := c, generation := u.itemGeneration (x.handle?.bind handleOf), body := x.refusalBody .none } : Answer)) ∈ l :=
    sub q _ (by
      unfold State.waiterAnswers
      rw [waits, waiting]
      exact List.mem_singleton_self _)
  have named : (q, i) ∈ askedSlots l := List.mem_map_of_mem (f := fun x => (x.1, x.2.1)) m
  obtain ⟨list, -, waitsFor⟩ := State.answering_lists ((told.answerable l).2 ok) q
  rw [State.updEngine_port, list, waitsFor]
  refine ⟨⟨r, slot, ?_⟩, by simp [named], if_pos ⟨i, by rw [told.port]; exact head, named⟩⟩
  rw [told.answered_slot ok f k m (by rw [slot]; rfl), LineReq.refusalBody_eq]
  congr 2
  cases x.handle?.bind handleOf with
  | none => rfl
  | some h => exact congrArg Entry.generation ((State.updEngine_entry ..).trans (State.answering_entry ..)).symm

/-- The DISCOVERs of the pass stand answered (R138). -/
theorem State.Told.attachedAnswered (agree : s.slotsAgree) (r : EndReason) (c : PassRecord)
    (sub : ∀ y ∈ (s.engine g).pass.attached,
      (y.1, y.2, ({ status := r.status, generation := 0, body := discoverBody r c } : Answer)) ∈ l) :
    s.attachedAnswered ((u.answering l).updEngine k f) g r.status r.code c := by
  intro y hy
  obtain ⟨-, onLine⟩ := agree.attachedSound g
  obtain ⟨r', line⟩ := onLine y hy
  rw [told.answered_slot ok f k (sub y hy) (by rw [line]; rfl)]
  exact ⟨_, rfl, rfl, rfl, rfl⟩

end

end Sys2Proof.Machine
end

section
/-! PROOFS. The switch-off of a segment (R74, R91, R92). -/

namespace Sys2Proof.Machine

/-! ### The end of a pass as answers -/

/-- The answers that the end of an engine's active pass gives (R138). -/
def Engine.passAnswers (e : Engine) (r : EndReason) : List (PortId × SlotIx × Answer) :=
  if e.pass.active then e.pass.attached.map fun y => (y.1, y.2, { status := r.status, generation := 0, body := discoverBody r e.pass })
  else []

/-- An engine whose pass, if one is active, is over (R118, R137). -/
def Engine.passEnded (e : Engine) : Engine :=
  { e with pass := if e.pass.active then { e.pass with active := false, attached := [] } else e.pass }

theorem State.endPass_answering (s : State) (g : Seg) (r : EndReason) :
    s.endPass g r = (s.answering ((s.engine g).passAnswers r)).updEngine g Engine.passEnded := by
  unfold State.endPass Engine.passAnswers
  dsimp only
  split
  · rename_i active
    rw [State.answerAll_answering, State.updPass_eq, State.answering_updEngine]
    exact State.updEngine_congr (by rw [State.answering_engine]; simp [Engine.passEnded, active])
  · rename_i inactive
    rw [State.updEngine_congr (k := fun e => e) (by simp [State.answering, Engine.passEnded, inactive]), State.updEngine_id]
    rfl

theorem Engine.mem_passAnswers {e : Engine} {r : EndReason} {x : PortId × SlotIx} :
    x ∈ askedSlots (e.passAnswers r) ↔ e.pass.active = true ∧ x ∈ e.pass.attached := by
  unfold Engine.passAnswers
  split
  · rename_i active
    simp [askedSlots, active]
  · rename_i inactive
    simp [askedSlots, inactive]

theorem Engine.passAnswers_nodup {e : Engine} (distinct : e.pass.attached.Nodup) (r : EndReason) :
    (askedSlots (e.passAnswers r)).Nodup := by
  unfold Engine.passAnswers askedSlots
  split
  · rw [List.map_map]
    exact distinct.map fun _ _ same => same
  · exact List.nodup_nil

/-! ### A queue that empties -/

/-- The queue of segment `g` has emptied, with its returns (R91, R94, R95). -/
def State.emptied (s : State) (g : Seg) : State :=
  (s.updEngine g fun e => { e with queue := [] }).returnItems (s.engine g).queue

theorem State.flushQueue_eq (s : State) (g : Seg) (c : Status) (r : EndReason) (f : State → State) :
    s.flushQueue g c r f =
      (((f (s.emptied g)).answerItems c r (s.engine g).queue).finishWaiting g c .a).finishWaiting g c .b := rfl

theorem State.emptied_engine (s : State) (g k : Seg) :
    (s.emptied g).engine k = if k = g then { s.engine g with queue := [] } else s.engine k := by
  rw [State.emptied, State.engine, State.returnItems_engines, ← State.engine, State.updEngine_engine]

theorem State.Returns.emptied (s : State) (g : Seg) :
    s.Returns (s.emptied g) s.threshold fun h => ∃ x ∈ (s.engine g).queue, x.holds h := by
  have threshold : (s.updEngine g fun e => { e with queue := [] }).threshold = s.threshold := by
    funext k
    rw [State.threshold, State.updEngine_engine, State.threshold]
    split
    · subst_vars
      rfl
    · rfl
  have items := State.Returns.returnItems (s.updEngine g fun e => { e with queue := [] }) (s.engine g).queue
  rw [threshold] at items
  exact ((State.Returns.updEngine s g _ s.threshold).trans items).congr fun h => ⟨fun e => e.elim False.elim id, .inr⟩

theorem Entry.returned_isFree (e : Entry) (T : Nat) : (e.returned T).isFree = e.isFree := by
  by_cases hand : e.inHand
  · obtain ⟨p, held⟩ := e.inHand_iff_heldAs.1 hand
    have before : e.isFree = false := by
      rcases hand with ⟨_, _, h⟩ | ⟨_, _, h⟩ <;> simp [Entry.isFree, h]
    rw [Entry.returned_held held, before]
    cases p with
    | seeded | present => by_cases le : T ≤ e.silence <;> simp [Entry.cameBack, Entry.isFree, le, priorState]
    | absent | conflict => simp [Entry.cameBack, Entry.isFree]
  · rw [Entry.returned_free hand]

theorem State.Returns.isFree {s t : State} {T : Seg → Nat} {given : Handle → Prop} (h : s.Returns t T given) (k : Handle) :
    (t.entry k).isFree = (s.entry k).isFree := by
  obtain ⟨back, stays⟩ := h.effect.1 k
  by_cases hk : given k
  · rw [back hk, Entry.returned_isFree]
  · rw [stays hk]

theorem State.loweredTo_calm (s : State) (g : Seg) (T : Nat) (h : Handle) :
    ((s.loweredTo g T).entry h).segment = (s.entry h).segment ∧ ((s.loweredTo g T).entry h).isFree = (s.entry h).isFree := by
  obtain ⟨falls, stays⟩ := s.loweredTo_entry g T h
  by_cases f : s.falls g T h
  · rw [falls f]
    refine ⟨rfl, ?_⟩
    rcases f.2.2.1 with e | e <;> simp [Entry.isFree, e]
  · rw [stays f]
    exact ⟨rfl, rfl⟩

/-- What waits for a queue does not change with a told event that moves and frees no entry. -/
theorem State.Told.waitingFor {s u : State} {handed : Handle → Prop} {raised : Nat → Prop} (told : s.Told u handed raised)
    (calm : ∀ h, (u.entry h).segment = (s.entry h).segment ∧ (u.entry h).isFree = (s.entry h).isFree) (g : Seg) (q : PortId) :
    u.waitingFor g q = s.waitingFor g q :=
  State.waitingFor_congr (by rw [told.port]) (by rw [told.port]) (told.slot q) calm g

/-! ### The switch-off -/

/-- Whether an engine becomes OFF at once when its segment is switched off (R91). -/
def Engine.stops (e : Engine) : Prop := e.state = .idle ∨ e.state = .fault

/-- What a switch-off makes of an engine whose queue has emptied (R91, R92). -/
def Engine.switchedOff (g : Seg) (e : Engine) : Engine :=
  let t := { e with pollDue := false }
  match e.state with
  | .idle | .fault => { t.passEnded with state := .off, tookQueue := false, line := e.line.switchedOff g }
  | .transaction | .contest => { t with offTaken := true }
  | .off => t

/-- The DISCOVERs that a switch-off answers with the pass (R138). -/
def Engine.offAnswers (e : Engine) : List (PortId × SlotIx × Answer) :=
  match e.state with
  | .idle | .fault => e.passAnswers .off
  | .transaction | .contest | .off => []

/-- A switch-off after its flush from `u` (R91, R92). -/
theorem State.switchOff_answering {w u : State} {g : Seg} {l : List (PortId × SlotIx × Answer)}
    (flush : w.flushQueue g .segmentOff .off id = u.answering l) (state : (u.engine g).state = (w.engine g).state) :
    w.switchOff g = (u.answering (l ++ (u.engine g).offAnswers)).updEngine g (Engine.switchedOff g) := by
  have engine : ((u.answering l).updEngine g fun e => { e with pollDue := false }).engine g = { u.engine g with pollDue := false } := by
    rw [State.updEngine_engine_same, State.answering_engine]
  have over' : (((u.answering l).updEngine g fun e => { e with pollDue := false }).endPass g .off).updEngine g
      (fun e => { e with state := .off, tookQueue := false, line := e.line.switchedOff g }) =
      (u.answering (l ++ (u.engine g).passAnswers .off)).updEngine g fun e =>
        { ({ e with pollDue := false } : Engine).passEnded with state := .off, tookQueue := false, line := e.line.switchedOff g } := by
    rw [State.endPass_answering, engine, State.answering_updEngine, ← State.answering_append, State.updEngine_updEngine,
      State.updEngine_updEngine]
    rfl
  unfold State.switchOff
  dsimp only
  rw [flush, ← state]
  cases hs : (u.engine g).state with
  | idle | fault =>
    refine over'.trans ?_
    rw [show (u.engine g).offAnswers = (u.engine g).passAnswers .off by unfold Engine.offAnswers; rw [hs]]
    exact State.updEngine_congr (by rw [State.answering_engine, Engine.switchedOff, hs])
  | transaction | contest =>
    rw [show (u.engine g).offAnswers = [] by unfold Engine.offAnswers; rw [hs], List.append_nil]
    exact (State.updEngine_updEngine ..).trans (State.updEngine_congr (by rw [State.answering_engine, Engine.switchedOff, hs]))
  | off =>
    rw [show (u.engine g).offAnswers = [] by unfold Engine.offAnswers; rw [hs], List.append_nil]
    exact State.updEngine_congr (by rw [State.answering_engine, Engine.switchedOff, hs])

/-- What a written and switched-off engine holds (R74, R91, R92, R104). -/
theorem Engine.written_off {e : Engine} (g : Seg) {x : Settings} {w : Engine} (hw : { e.write x with queue := [] } = w) :
    (e.stops → w.switchedOff g =
      { w with
        pollDue := false
        state := .off
        tookQueue := false
        line := { e.line with driving := e.line.driving && Config.breakOutlastsOff g }
        pass := if e.pass.active then { e.pass with active := false, attached := [] } else e.pass }) ∧
    (e.state = .transaction ∨ e.state = .contest → w.switchedOff g = { w with pollDue := false, offTaken := true }) ∧
    (e.state = .off → w.switchedOff g = { w with pollDue := false }) := by
  have state : w.state = e.state := by rw [← hw]; rfl
  have line : w.line = e.line := by rw [← hw]; rfl
  have pass : w.pass = e.pass := by rw [← hw]; rfl
  unfold Engine.switchedOff Engine.stops
  rw [state]
  refine ⟨fun stops => ?_, fun busy => ?_, fun off => ?_⟩
  · rcases stops with h | h <;> rw [h] <;> simp only [Engine.passEnded, Line.switchedOff, line, pass]
  · rcases busy with h | h <;> rw [h]
  · rw [off]

/-- Settles O37. -/
theorem switchOffAnswersTheQueue : Obligations.SwitchOffAnswersTheQueue := by
  intro s p i r rest g per mul thr gra ret dis md hd agree hk hb hper hmul hlow hthr hgra hret hdis hmd permit fit old e becomesOff
    written given
  let x := settingsOf 0 per mul thr gra ret dis md
  let low := s.loweredTo g x.threshold
  let w := low.updEngine g (·.write x)
  let u := w.emptied g
  have lowEngine (k : Seg) : low.engine k = s.engine k := by rw [State.engine, State.loweredTo_engines, State.engine]
  have wEngine : w.engine g = e.write x := by rw [State.updEngine_engine_same, lowEngine]
  have uEngine : u.engine g = { e.write x with queue := [] } := by rw [State.emptied_engine, if_pos rfl, wEngine]
  have returns : low.Returns u w.threshold given :=
    ((State.Returns.updEngine low g _ _).trans (State.Returns.emptied w g)).congr fun h => by
      rw [wEngine]
      exact ⟨fun e => e.elim False.elim id, .inr⟩
  have told := (State.Told.loweredTo s g x.threshold).trans returns.told
  have waits (q : PortId) : u.waitingFor g q = s.waitingFor g q :=
    told.waitingFor (fun h => ⟨(returns.segment h).trans (s.loweredTo_calm g x.threshold h).1,
      (returns.isFree h).trans (s.loweredTo_calm g x.threshold h).2⟩) g q
  let flush := u.flushAnswers g .segmentOff .off e.queue []
  let off := (u.engine g).offAnswers
  let answer : Answer :=
    { status := .ok, generation := 0, body := x.bytes ++ [engineCode ((u.engine g).switchedOff g).state] }
  have memOff (y : PortId × SlotIx) : y ∈ askedSlots off ↔ becomesOff ∧ e.pass.active = true ∧ y ∈ e.pass.attached := by
    have state : (u.engine g).state = e.state := by rw [uEngine]; rfl
    have pass : (u.engine g).pass = e.pass := by rw [uEngine]; rfl
    unfold off Engine.offAnswers becomesOff
    rw [state]
    cases hs : e.state with
    | idle | fault => rw [Engine.mem_passAnswers, pass]; simp
    | transaction | contest | off => simp [askedSlots]
  obtain ⟨live, listed, new, slot, unserved⟩ := id hd
  have ok : s.answerable (flush ++ off ++ [(p, i, answer)]) := by
    refine agree.answerable_flush waits _ _ ?_ (fun y hy => ?_) (List.nodup_singleton _) fun y hy => ?_
    · refine List.nodup_append'.2 ⟨List.nodup_nil, ?_, fun _ no => nomatch no⟩
      have distinct : (u.engine g).pass.attached.Nodup := by rw [uEngine]; exact (agree.attachedSound g).1
      unfold off Engine.offAnswers
      split
      case h_1 | h_2 => exact Engine.passAnswers_nodup distinct _
      all_goals exact List.nodup_nil
    · exact (agree.attachedSound g).2 y ((memOff y).1 hy).2.2
    · obtain rfl := List.mem_singleton.1 hy
      exact ⟨⟨r, slot⟩, fun z => by rw [State.waitingFor_none g unserved]; simp⟩
  have apart (q : PortId) (j : SlotIx) (lined : (q, j) ∈ askedSlots (u.linedAnswers .segmentOff .off e.queue [])) :
      j ∉ (u.port q).waiting := by
    rw [State.linedAnswers, List.nil_append, State.askedSlots_itemAnswers s u g] at lined
    rw [told.port]
    intro listed
    obtain ⟨r', dispatched⟩ := (agree.queued g).2 _ lined
    obtain ⟨r'', waiting⟩ := agree.waiting listed
    rw [dispatched] at waiting
    cases waiting
  have flushed : w.flushQueue g .segmentOff .off id = u.answering flush := by
    rw [State.flushQueue_eq, wEngine]
    exact State.flush_eq rfl ((told.answerable _).2 ok.left.left) apart
  have switched := State.switchOff_answering flushed (by rw [uEngine, wEngine])
  have applied : s.applySettings g x = (u.answering (flush ++ off)).updEngine g (Engine.switchedOff g) := by
    rw [State.applySettings_eq, if_neg (by simp [x, settingsOf]), if_pos old, State.settingsWritten_eq]
    exact switched
  let t := (u.answering (flush ++ off ++ [(p, i, answer)])).updEngine g (Engine.switchedOff g)
  have tEngine : t.engine g = (u.engine g).switchedOff g := by rw [State.updEngine_engine_same, State.answering_engine]
  have uQueue : { e.write x with queue := [] } = u.engine g := uEngine.symm
  obtain ⟨stops, busy, stays⟩ := Engine.written_off g uQueue
  have zero : dis.toNat = 0 ↔ dis = 0 := by rw [← BitVec.toNat_inj]; rfl
  have uWritten : { u.engine g with pollDue := false } = written := by
    rw [uEngine]
    simp only [Engine.write, x, settingsOf, zero]
    rfl
  have asked (q : PortId) (j : SlotIx) :
      ((q = p ∧ j = i) ∨ (q, j) ∈ s.queuedSlots g ∨ (∃ y, s.waitingFor g q = some (j, y)) ∨
        (becomesOff ∧ e.pass.active = true ∧ (q, j) ∈ e.pass.attached)) ↔ (q, j) ∈ askedSlots (flush ++ off ++ [(p, i, answer)]) := by
    have items : askedSlots (u.itemAnswers .segmentOff .off e.queue) = s.queuedSlots g := State.askedSlots_itemAnswers s u g _ _
    have waiters : ((q, j) ∈ askedSlots (u.waiterAnswers g .segmentOff .a) ∨ (q, j) ∈ askedSlots (u.waiterAnswers g .segmentOff .b)) ↔
        ∃ y, s.waitingFor g q = some (j, y) := by
      rw [State.mem_waiterAnswers, State.mem_waiterAnswers, waits, waits]
      cases q <;> simp
    have last : (q, j) ∈ askedSlots [(p, i, answer)] ↔ q = p ∧ j = i := by simp [askedSlots]
    unfold flush State.flushAnswers
    rw [List.nil_append, askedSlots_append, askedSlots_append, askedSlots_append, askedSlots_append, List.mem_append, List.mem_append,
      List.mem_append, List.mem_append, or_assoc (b := (q, j) ∈ askedSlots (u.waiterAnswers g .segmentOff .a)), waiters, items, memOff,
      last]
    exact ⟨fun h => h.elim .inr fun h => .inl (h.elim (fun h => .inl (.inl h)) fun h => h.elim (fun h => .inl (.inr h)) .inr),
      fun h => h.elim (fun h => .inr (h.elim (fun h => h.elim .inl fun h => .inr (.inl h)) fun h => .inr (.inr h))) .inl⟩
  have suited : bodySetSegment r.body = some (g, x) :=
    hb ▸ bodySetSegment_some g (by simp) hper hmul hlow hthr hgra hret hdis hmd
  have tPort (q : PortId) : (t.port q).notices = (u.port q).notices := by
    rw [State.updEngine_port, (u.answering_port _ q).1]
  have tOther (k : Seg) (hk : k ≠ g) : t.engine k = w.engine k := by
    rw [State.updEngine_engine_ne _ _ _ _ hk, State.answering_engine, State.emptied_engine, if_neg hk]
  have kept : ((u.engine g).switchedOff g).settings = x := by
    have settings : (u.engine g).settings = x := by rw [uEngine]; rfl
    unfold Engine.switchedOff
    dsimp only
    split <;> exact settings
  have thresholds : w.threshold = t.threshold := by
    funext k
    rw [State.threshold, State.threshold]
    by_cases hk : k = g
    · subst hk
      rw [tEngine, wEngine, kept]
      rfl
    · rw [tOther k hk]
  refine ⟨t, ?_, fun off' => ⟨?_, fun active => ?_⟩, fun going => ?_, fun off' => ?_, fun k hk => ?_, ?_, ?_, ?_, ?_,
    low, s.lowersTo_loweredTo g x.threshold, ?_, fun q => ?_, ?_⟩
  · refine congrArg Host.Outcome.next ?_
    rw [State.serve, State.dispatch_of_heads hd hk, serveSetSegment_passed suited permit fit, applied, State.updEngine_engine_same,
      State.answering_engine, kept, State.finish_updEngine]
    exact congrArg (State.updEngine · g (Engine.switchedOff g)) (State.answering_append u (flush ++ off) [(p, i, answer)]).symm
  · rw [tEngine, stops off', ← uWritten]
  · have pass : (u.engine g).pass = e.pass := by rw [uEngine]; rfl
    refine told.attachedAnswered ok _ g g agree .off e.pass fun y hy => ?_
    refine List.mem_append_left _ (List.mem_append_right _ ?_)
    have all : off = (u.engine g).passAnswers .off := by
      have state : (u.engine g).state = e.state := by rw [uEngine]; rfl
      unfold off Engine.offAnswers
      rw [state]
      obtain h | h := off' <;> rw [h]
    rw [all, Engine.passAnswers, pass, if_pos active]
    exact List.mem_map_of_mem (f := fun y : PortId × SlotIx =>
      (y.1, y.2, ({ status := EndReason.off.status, generation := 0, body := discoverBody .off e.pass } : Answer))) hy
  · rw [tEngine, busy going, ← uWritten]
  · rw [tEngine, stays off', ← uWritten]
  · rw [tOther k hk, State.updEngine_engine_ne _ _ _ _ hk, lowEngine]
  · refine told.queueAnswered ok _ g g agree .segmentOff .off ?_
    have sub : (u.itemAnswers .segmentOff .off e.queue).Sublist ([] ++ u.itemAnswers .segmentOff .off e.queue) := .refl _
    exact (((sub.trans (List.sublist_append_left ..)).trans (List.sublist_append_left ..)).trans (List.sublist_append_left ..)).trans
      (List.sublist_append_left ..)
  · refine told.waitersAnswered ok _ g g .segmentOff waits fun q y hy => List.mem_append_left _ (List.mem_append_left _ ?_)
    cases q with
    | a => exact List.mem_append_left _ (List.mem_append_right _ hy)
    | b => exact List.mem_append_right _ hy
  · have slot' := told.answered_slot ok (Engine.switchedOff g) g (q := p) (j := i) (b := answer) (by simp) (by rw [slot]; rfl)
    rw [slot', tEngine]
    simp only [answer, x, settingsOf_bytes (on := 0) (by simp) hmd]
    rfl
  · exact told.answersOnly ok asked g _
  · rw [← thresholds]
    obtain ⟨one, two⟩ := returns.effect
    refine ⟨fun h => ?_, fun k a => ?_⟩
    · rw [State.updEngine_entry, State.answering_entry]
      exact one h
    · rw [State.updEngine_mapSlot, State.answering_mapSlot]
      exact two k a
  · rw [← thresholds]
    exact (returns.told.congr (fun _ => .rfl) fun k => by simp).returnsTold (tPort q)
  · rw [← thresholds]
    refine (returns.told.congr (fun _ => .rfl) fun k => by simp).wakes.congr (fun _ _ => rfl) (fun _ => rfl) rfl ?_
    rw [State.updEngine_runState, State.answering_runState]

end Sys2Proof.Machine
end

section
/-! PROOFS. What a stuck activity leaves, and answers beside a notice (R95, R129, R134, R135). -/

namespace Sys2Proof.Machine

/-! ### Answers beside a notice -/

theorem PortState.finish_flagged (x : PortState) (i : SlotIx) (a : Answer) (n : Notice) :
    (x.flagged n).finish i a = (x.finish i a).flagged n := by
  unfold PortState.finish
  rw [show (x.flagged n).slots = x.slots from rfl]
  split <;> rfl

theorem State.finish_noticed (s : State) (p : PortId) (i : SlotIx) (a : Answer) (n : Notice) :
    (s.noticed n).finish p i a = (s.finish p i a).noticed n := by
  cases p with
  | a =>
    simp only [State.finish, State.updPort, State.noticed, State.setPort, State.port, PortState.finish_flagged,
      PortState.finish_notices]
  | b =>
    simp only [State.finish, State.updPort, State.noticed, State.setPort, State.port, PortState.finish_flagged,
      PortState.finish_notices]

theorem State.answering_noticed (s : State) (l : List (PortId × SlotIx × Answer)) (n : Notice) :
    (s.noticed n).answering l = (s.answering l).noticed n := by
  induction l generalizing s with
  | nil => rfl
  | cons x l ih =>
    obtain ⟨p, i, a⟩ := x
    rw [State.answering, State.finish_noticed, ih, State.answering]

/-- The answers of a flush depend on the entries and on what waits for the queue. -/
theorem State.flushAnswers_congr {u v : State} (entries : v.entries = u.entries) {g : Seg}
    (waits : ∀ q, v.waitingFor g q = u.waitingFor g q) (c : Status) (r : EndReason) (items : List QueueItem)
    (carried : List (PortId × SlotIx × Answer)) : v.flushAnswers g c r items carried = u.flushAnswers g c r items carried := by
  have generation (h : Option Handle) := State.itemGeneration_congr entries h
  unfold State.flushAnswers State.itemAnswers State.waiterAnswers
  simp only [generation, waits]

/-! ### What a stuck activity leaves -/

/-- The part with the JOIN_HOLD of a stuck ASSIGN EMPTY (R135). -/
def State.stuckBase (s : State) (g : Seg) (w : Work) : State :=
  match w with
  | .assign .newJoin _ _ a | .assign .transfer _ _ a => s.setMap g a .empty
  | _ => s

/-- The counts of the pass in which an activity is stuck (R129, R134, R135). -/
def Work.stuckCounts (w : Work) (c : PassRecord) : PassRecord :=
  match w with
  | .assign _ _ _ _ | .park _ | .releaseStray _ _ => { c with lost := c.lost + 1 }
  | _ => c

/-- The activity is a MOVE or a RETIRE of entry `h`. -/
def Work.holds (w : Work) (h : Handle) : Prop :=
  (∃ step adr target x, w = .move step h adr target x) ∨ ∃ adr force, w = .retire h adr force

theorem State.stuckEffect_engine (s : State) (g k : Seg) (w : Work) :
    (s.stuckEffect g w).engine k = if k = g then { s.engine g with pass := w.stuckCounts (s.engine g).pass } else s.engine k := by
  have plain : s.engine k = if k = g then { s.engine g with pass := (s.engine g).pass } else s.engine k := by
    split
    · subst_vars
      rfl
    · rfl
  have returned (h : Handle) : (s.returnEntry h).engine k = s.engine k := by
    rw [State.engine, State.returnEntry_engines, State.engine]
  cases w with
  | move step h a t x => exact (returned h).trans plain
  | retire h a f => exact (returned h).trans plain
  | park x => exact State.updEngine_engine ..
  | releaseStray x a => exact State.updEngine_engine ..
  | assign kind w c a =>
    cases kind with
    | rejoin h => exact State.updEngine_engine ..
    | newJoin | transfer =>
      refine (State.updEngine_engine ..).trans ?_
      rw [State.setMap_engine, State.setMap_engine]
      rfl
  | nodeRead | nodeWrite | broadcast | poll | resolveRelease | resolvePresence | unparkAll | callUnbound => exact plain

theorem State.Returns.stuckEffect (s : State) (g : Seg) (w : Work) :
    (s.stuckBase g w).Returns (s.stuckEffect g w) s.threshold w.holds := by
  have nothing (none : ∀ h, ¬ w.holds h) :
      (s.stuckBase g w).Returns ((s.stuckBase g w).updPass g PassRecord.countLost) s.threshold w.holds :=
    (State.Returns.updEngine ..).congr fun h => ⟨False.elim, none h⟩
  have still (none : ∀ h, ¬ w.holds h) : (s.stuckBase g w).Returns (s.stuckBase g w) s.threshold w.holds :=
    (State.Returns.refl ..).congr fun h => ⟨False.elim, none h⟩
  cases w with
  | move step h a t x =>
    refine (State.Returns.returnEntry s h).congr fun k => ⟨fun e => .inl ⟨step, a, t, x, e ▸ rfl⟩, fun e => ?_⟩
    obtain ⟨_, _, _, _, e⟩ | ⟨_, _, e⟩ := e <;> cases e
    rfl
  | retire h a f =>
    refine (State.Returns.returnEntry s h).congr fun k => ⟨fun e => .inr ⟨a, f, e ▸ rfl⟩, fun e => ?_⟩
    obtain ⟨_, _, _, _, e⟩ | ⟨_, _, e⟩ := e <;> cases e
    rfl
  | park x => exact nothing fun h => by simp [Work.holds]
  | releaseStray x a => exact nothing fun h => by simp [Work.holds]
  | assign kind w c a =>
    cases kind with
    | rejoin h => exact nothing fun h => by simp [Work.holds]
    | newJoin | transfer => exact nothing fun h => by simp [Work.holds]
  | nodeRead | nodeWrite | broadcast | poll | resolveRelease | resolvePresence | unparkAll | callUnbound =>
    exact still fun h => by simp [Work.holds]

theorem State.stuckBase_updEngine (s : State) (g k : Seg) (f : Engine → Engine) (w : Work) :
    (s.updEngine k f).stuckBase g w = (s.stuckBase g w).updEngine k f := by
  unfold State.stuckBase
  split
  · exact State.setMap_updEngine ..
  · exact State.setMap_updEngine ..
  · rfl

/-- The answer of the request on the line (R95). -/
def ownerAnswers (o : Option Owner) (a : Answer) : List (PortId × SlotIx × Answer) :=
  match o with
  | some { port := p, slot := some i } => [(p, i, a)]
  | some { port := _, slot := none } | none => []

theorem State.finishOwner_answering (s : State) (o : Option Owner) (a : Answer) : s.finishOwner o a = s.answering (ownerAnswers o a) := by
  obtain _ | ⟨p, _ | i⟩ := o <;> rfl

theorem mem_ownerAnswers {o : Option Owner} {a : Answer} {q : PortId} {j : SlotIx} :
    (q, j) ∈ askedSlots (ownerAnswers o a) ↔ o = some { port := q, slot := some j } := by
  obtain _ | ⟨p, _ | i⟩ := o <;> simp [ownerAnswers, askedSlots, eq_comm]

end Sys2Proof.Machine
end

section
/-! PROOFS. A stuck line (R58, R94, R95). -/

namespace Sys2Proof.Machine

/-! ### A stuck line -/

/-- The engine of a stuck line, once its pass is over (R95). -/
def Engine.faulted (e : Engine) : Engine :=
  { e.passEnded with state := .fault, pollDue := false, discoveryDue := false, tookQueue := false }

/-- The engine of a stuck line as it is measured, its activity over (R58, R95). -/
def Engine.stuck (run : Nat) (e : Engine) : Engine := ({ e with line := { e.line.sawDominant run with attempt := none } } : Engine).cleared

/-- FAULT, once the queue has been flushed (R95). -/
theorem State.enterFault_answering {x v : State} {g : Seg} {a : Activity} {l : List (PortId × SlotIx × Answer)}
    (flush : ((x.updEngine g Engine.cleared).stuckEffect g a.work).flushQueue g .segmentFault .fault (State.answerStuck a) =
      v.answering l) :
    x.enterFault g a =
      ((v.noticed .segFault).answering (l ++ (v.engine g).passAnswers .fault)).updEngine g Engine.faulted := by
  unfold State.enterFault
  dsimp only
  rw [flush, State.endPass_answering, State.answering_engine, ← State.answering_append, State.updEngine_updEngine, State.raise_eq,
    State.noticed_updEngine, State.answering_noticed]
  rfl

/-- A line that sticks in IDLE_WAIT puts its engine in FAULT (R58, R95). -/
theorem exec_stuck {s : State} {g : Seg} {a : Activity} {t : Attempt} {run : Nat} (hat : s.attempting g a t)
    (waits : t.phase = .idleWait) (released : (s.engine g).line.driving = false) (long : 64 ≤ run) :
    exec (.stuck g run) s = .next
      ((s.updEngine g fun e => { e with line := { e.line.sawDominant run with attempt := none } }).enterFault g a) := by
  obtain ⟨ha, ht⟩ := hat
  refine congrArg Host.Outcome.next ?_
  unfold State.stuckLine
  rw [if_pos ⟨long, released, by rw [State.inPhase_eq ht, waits]; rfl⟩, State.attemptEnds, State.updLine_eq, State.updLine_eq,
    State.updEngine_updEngine]
  dsimp only
  rw [State.updEngine_engine_same, ha]
  exact if_pos rfl

/-- The SEGMENT_FAULT answer of a stuck activity's request, from the state after the event (R95, R151, R156). -/
theorem State.stuckAnswer_congr {u v : State} (entries : u.entries = v.entries) (w : Work) : u.stuckAnswer w = v.stuckAnswer w := by
  unfold State.stuckAnswer State.moveAnswer State.retireAnswer State.refuse State.entry
  rw [entries]

theorem Engine.carriedSlots_eq {e : Engine} {a : Activity} (ha : e.activity = some a) (b : Answer) :
    e.carriedSlots = e.pass.attached ++ askedSlots (ownerAnswers a.owner b) := by
  unfold Engine.carriedSlots
  rw [ha]
  obtain ⟨w, _ | ⟨p, _ | i⟩, n⟩ := a <;> rfl

theorem Engine.askedSlots_passAnswers (e : Engine) (r : EndReason) : (askedSlots (e.passAnswers r)).Sublist e.pass.attached := by
  unfold Engine.passAnswers askedSlots
  split
  · simp [Function.comp_def]
  · exact List.nil_sublist _

/-- Settles O60. -/
theorem stuckLineEntersFault : Obligations.StuckLineEntersFault := by
  intro s g a t run hat waiting released long e given base counts
  let x := s.updEngine g (Engine.stuck run)
  let t1 := x.stuckEffect g a.work
  let v := t1.emptied g
  let v' := v.noticed .segFault
  have baseEq : base = s.stuckBase g a.work := rfl
  have countsEq : counts = a.work.stuckCounts e.pass := rfl
  have xThreshold : x.threshold = s.threshold := by
    funext k
    rw [State.threshold, State.updEngine_engine, State.threshold]
    split
    · subst_vars
      rfl
    · rfl
  have t1Engine (k : Seg) : t1.engine k = if k = g then { Engine.stuck run e with pass := counts } else s.engine k := by
    rw [State.stuckEffect_engine, State.updEngine_engine_same, State.updEngine_engine]
    split
    · rfl
    · rfl
  have t1Threshold : t1.threshold = s.threshold := by
    funext k
    rw [State.threshold, t1Engine, State.threshold]
    split
    · subst_vars
      rfl
    · rfl
  have vEngine (k : Seg) : v.engine k = if k = g then { Engine.stuck run e with pass := counts, queue := [] } else s.engine k := by
    rw [State.emptied_engine, t1Engine, t1Engine, if_pos rfl]
    split
    · rfl
    · rfl
  have returns : base.Returns v s.threshold given := by
    have first := State.Returns.updEngine base g (Engine.stuck run) s.threshold
    rw [baseEq, ← State.stuckBase_updEngine] at first
    have second := State.Returns.stuckEffect x g a.work
    rw [xThreshold] at second
    have third := State.Returns.emptied t1 g
    rw [t1Threshold] at third
    rw [baseEq]
    refine ((first.trans second).trans third).congr fun h => ?_
    rw [t1Engine, if_pos rfl]
    exact ⟨fun e => e.elim (fun e => .inr (e.elim False.elim id)) .inl, fun e => e.elim .inr fun e => .inl (.inr e)⟩
  have silent : s.Told base (fun _ => False) fun _ => False := by
    rw [baseEq]
    unfold State.stuckBase
    split
    · exact .setMap ..
    · exact .setMap ..
    · exact .refl s
  have toldBase := returns.told.trans (.noticed v .segFault)
  have told := silent.trans toldBase
  have baseEntry (h : Handle) : base.entry h = s.entry h := by
    rw [baseEq]
    unfold State.stuckBase
    split <;> simp
  have calm (h : Handle) : (v.entry h).segment = (s.entry h).segment ∧ (v.entry h).isFree = (s.entry h).isFree :=
    ⟨(returns.segment h).trans (congrArg Entry.segment (baseEntry h)),
      (returns.isFree h).trans (congrArg Entry.isFree (baseEntry h))⟩
  have waits (q : PortId) : v'.waitingFor g q = s.waitingFor g q := told.waitingFor calm g q
  let carried := ownerAnswers a.owner (v.stuckAnswer a.work)
  let flush := v'.flushAnswers g .segmentFault .fault e.queue carried
  let att := (v.engine g).passAnswers .fault
  have pass : (v.engine g).pass = counts := by rw [vEngine, if_pos rfl]
  have lists : counts.active = e.pass.active ∧ counts.attached = e.pass.attached := by
    rw [countsEq]
    unfold Work.stuckCounts
    split <;> exact ⟨rfl, rfl⟩
  have memAtt (y : PortId × SlotIx) : y ∈ askedSlots att ↔ e.pass.active = true ∧ y ∈ e.pass.attached := by
    rw [Engine.mem_passAnswers, pass, lists.1, lists.2]
  have okOf (agree : s.slotsAgree) : s.answerable (flush ++ att ++ []) := by
    have carriedSlots := Engine.carriedSlots_eq (e := s.engine g) hat.1 (v.stuckAnswer a.work)
    obtain ⟨-, -, distinct, -, onLine⟩ := id agree
    have all : ((s.engine g).pass.attached ++ askedSlots carried).Nodup :=
      carriedSlots ▸ (List.nodup_flatMap.1 distinct).1 g (mem_allSegments g)
    have sub : (askedSlots att).Sublist (s.engine g).pass.attached := by
      have sub := Engine.askedSlots_passAnswers (v.engine g) .fault
      rw [pass, lists.2] at sub
      exact sub
    refine agree.answerable_flush waits _ _ ((List.nodup_append_comm.1 all).sublist (sub.append_left _)) (fun y hy => ?_)
      List.nodup_nil fun _ no => nomatch no
    refine onLine g y ?_
    rw [carriedSlots]
    exact List.mem_append.2 ((List.mem_append.1 hy).symm.imp (fun h => sub.subset h) id)
  have flushed : ∃ l, t1.flushQueue g .segmentFault .fault (State.answerStuck a) = v.answering l ∧ (s.slotsAgree → l = flush) := by
    have owner : State.answerStuck a v = v.answering carried := State.finishOwner_answering ..
    have queue : (t1.engine g).queue = e.queue := by rw [t1Engine, if_pos rfl]; rfl
    rw [State.flushQueue_eq, queue]
    by_cases agree : s.slotsAgree
    · have same : flush = v.flushAnswers g .segmentFault .fault e.queue carried :=
        State.flushAnswers_congr (u := v) (v := v') rfl (fun q => (waits q).trans ((silent.trans returns.told).waitingFor calm g q).symm) _ _ _ _
      have ok := (okOf agree).left.left
      rw [same] at ok
      refine ⟨_, State.flush_eq owner (((silent.trans returns.told).answerable _).2 ok) ?_, fun _ => same.symm⟩
      · intro q j lined listed
        rw [State.linedAnswers, askedSlots_append, List.mem_append, State.askedSlots_itemAnswers s v g] at lined
        have held : (s.port q).waiting = (v.port q).waiting := by rw [(silent.trans returns.told).port]
        obtain ⟨r, waiting⟩ := agree.waiting (held ▸ listed)
        obtain ⟨-, -, -, queued, onLine⟩ := agree
        obtain onLine' | dispatched : (∃ r, s.slot q j = .onLine r) ∨ ∃ r, s.slot q j = .dispatched r := lined.imp
          (fun h => onLine g (q, j) (by
            rw [Engine.carriedSlots_eq hat.1 (v.stuckAnswer a.work)]
            exact List.mem_append_right _ h)) (queued g (q, j))
        · obtain ⟨r', h⟩ := onLine'
          rw [waiting] at h
          cases h
        · obtain ⟨r', h⟩ := dispatched
          rw [waiting] at h
          cases h
    · obtain ⟨l, hl⟩ := State.flush_answers (u := v) g .segmentFault .fault e.queue ⟨carried, owner⟩
      exact ⟨l, hl, fun yes => absurd yes agree⟩
  obtain ⟨l, flushed, exact'⟩ := flushed
  have enters : exec (.stuck g run) s = .next ((v'.answering (l ++ att)).updEngine g Engine.faulted) := by
    rw [exec_stuck hat waiting released long]
    refine congrArg Host.Outcome.next (State.enterFault_answering ?_)
    rw [State.updEngine_updEngine]
    exact flushed
  let u := (v'.answering (l ++ att)).updEngine g Engine.faulted
  have uPort (q : PortId) : (u.port q).notices = (v'.port q).notices := by rw [State.updEngine_port, (v'.answering_port _ q).1]
  have flag (k : Nat) : (0x200#13).getLsbD k = true ↔ k = 9 := by
    by_cases small : k < 13
    · interval_cases k <;> simp
    · rw [BitVec.getLsbD_of_ge _ _ (by omega)]
      exact ⟨(fun h => nomatch h), fun h => absurd small (by omega)⟩
  have toldReturns : base.Told v' (fun h => given h ∧ (base.entry h).inHand) fun k =>
      (0x200#13).getLsbD k = true ∨ (k = 4 ∧ ∃ h, given h ∧ (base.entry h).lapses (s.threshold (base.entry h).segment)) :=
    toldBase.congr (fun h => ⟨fun e => e.elim id False.elim, .inl⟩) fun k => by rw [flag]; exact or_comm
  refine ⟨u, enters, ?_, fun k hk => ?_, ?_, fun q => toldReturns.returnsTold (uPort q), ?_, fun agree => ?_⟩
  · rw [State.updEngine_engine_same, State.answering_engine, State.noticed_engine, vEngine, if_pos rfl, ← lists.1]
    rfl
  · rw [State.updEngine_engine_ne _ _ _ _ hk, State.answering_engine, State.noticed_engine, vEngine, if_neg hk]
  · obtain ⟨one, two⟩ := returns.effect
    refine ⟨fun h => ?_, fun k a => ?_⟩
    · rw [State.updEngine_entry, State.answering_entry]
      exact one h
    · rw [State.updEngine_mapSlot, State.answering_mapSlot]
      exact two k a
  · refine toldReturns.wakes.congr (fun _ _ => rfl) (fun _ => rfl) rfl ?_
    rw [State.updEngine_runState, State.answering_runState]
  · obtain rfl := exact' agree
    have ok : s.answerable (flush ++ att) := by
      have ok := okOf agree
      rwa [List.append_nil] at ok
    have owner (q : PortId) (j : SlotIx) : (q, j) ∈ askedSlots carried ↔ a.owner = some { port := q, slot := some j } :=
      mem_ownerAnswers
    refine ⟨fun active => ?_, ?_, ?_, fun p i owned => ?_, told.answersOnly ok (fun q j => ?_) g _⟩
    · refine told.attachedAnswered ok _ g g agree .fault counts fun y hy => List.mem_append_right _ ?_
      unfold att Engine.passAnswers
      rw [pass, lists.1, if_pos active, lists.2]
      exact List.mem_map_of_mem (f := fun y : PortId × SlotIx =>
        (y.1, y.2, ({ status := EndReason.fault.status, generation := 0, body := discoverBody .fault counts } : Answer))) hy
    · refine told.queueAnswered ok _ g g agree .segmentFault .fault ?_
      have sub : (v'.itemAnswers .segmentFault .fault e.queue).Sublist (carried ++ v'.itemAnswers .segmentFault .fault e.queue) :=
        List.sublist_append_right ..
      exact ((sub.trans (List.sublist_append_left ..)).trans (List.sublist_append_left ..)).trans (List.sublist_append_left ..)
    · refine told.waitersAnswered ok _ g g .segmentFault waits fun q y hy => List.mem_append_left _ ?_
      cases q with
      | a => exact List.mem_append_left _ (List.mem_append_right _ hy)
      | b => exact List.mem_append_right _ hy
    · have m : (p, i, v.stuckAnswer a.work) ∈ flush ++ att := by
        refine List.mem_append_left _ (List.mem_append_left _ (List.mem_append_left _ (List.mem_append_left _ ?_)))
        unfold carried ownerAnswers
        rw [owned]
        exact List.mem_singleton_self _
      have line : (p, i) ∈ (s.engine g).carriedSlots := by
        rw [Engine.carriedSlots_eq hat.1 (v.stuckAnswer a.work)]
        exact List.mem_append_right _ ((owner p i).2 owned)
      obtain ⟨-, -, -, -, onLine⟩ := agree
      obtain ⟨r, slot⟩ := onLine g _ line
      refine ⟨r, slot, ?_⟩
      have same : v.stuckAnswer a.work = u.stuckAnswer a.work := State.stuckAnswer_congr (by
        rw [State.updEngine_entries, State.answering_entries]
        rfl) a.work
      rw [told.answered_slot ok Engine.faulted g m (by rw [slot]; rfl), same]
      refine congrArg (Slot.completed r) ?_
      cases hw : a.work with
      | move step h x y z => cases step <;> rfl
      | _ => rfl
    · have items : askedSlots (v'.itemAnswers .segmentFault .fault e.queue) = s.queuedSlots g := State.askedSlots_itemAnswers s v' g _ _
      have waiters : ((q, j) ∈ askedSlots (v'.waiterAnswers g .segmentFault .a) ∨
          (q, j) ∈ askedSlots (v'.waiterAnswers g .segmentFault .b)) ↔ ∃ y, s.waitingFor g q = some (j, y) := by
        rw [State.mem_waiterAnswers, State.mem_waiterAnswers, waits, waits]
        cases q <;> simp
      unfold flush State.flushAnswers
      rw [askedSlots_append, askedSlots_append, askedSlots_append, askedSlots_append, List.mem_append, List.mem_append,
        List.mem_append, List.mem_append, or_assoc (b := (q, j) ∈ askedSlots (v'.waiterAnswers g .segmentFault .a)), waiters, items,
        memAtt, owner, or_assoc, or_assoc]

end Sys2Proof.Machine
end

section
/-! PROOFS. A port's lists with its slots (R168, R172). -/

namespace Sys2Proof.Machine

/-! ### A port's lists with its slots -/

/-- One slot written, with the lists that follow it. -/
theorem PortState.listsAgree.write {x y : PortState} (h : x.listsAgree) {i : SlotIx} {c : Slot} (slots : y.slots = x.slots.set i c)
    (distinct : y.waiting.Nodup ∧ y.completed.Nodup)
    (others : ∀ j, j ≠ i → (j ∈ y.waiting ↔ j ∈ x.waiting) ∧ (j ∈ y.completed ↔ j ∈ x.completed))
    (same : (i ∈ y.waiting ↔ ∃ r, c = .waiting r) ∧ (i ∈ y.completed ↔ ∃ q r, c = .completed q r)) : y.listsAgree := by
  obtain ⟨-, -, each⟩ := h
  refine ⟨distinct.1, distinct.2, fun j => ?_⟩
  rw [slots]
  by_cases hj : j = i
  · subst hj
    simpa using same
  · have other : i.val ≠ j.val := fun e => hj (Fin.ext e.symm)
    obtain ⟨waiting, completed⟩ := others j hj
    simpa [other, waiting, completed] using each j

theorem PortState.listsAgree.congr {x y : PortState} (h : x.listsAgree) (slots : y.slots = x.slots) (waiting : y.waiting = x.waiting)
    (completed : y.completed = x.completed) : y.listsAgree := by
  unfold PortState.listsAgree
  rw [slots, waiting, completed]
  exact h

section
variable {x : PortState} (h : x.listsAgree) {i : SlotIx}
include h

theorem PortState.listsAgree.not_completed {r : Request} (held : x.slots[i].request? = some r) : i ∉ x.completed := fun listed => by
  obtain ⟨q, r', done⟩ := ((h.2.2 i).2.1 listed)
  rw [done] at held
  cases held

theorem PortState.listsAgree.finish (a : Answer) : (x.finish i a).listsAgree := by
  cases held : x.slots[i].request? with
  | none =>
    have same : x.finish i a = x := by
      unfold PortState.finish
      rw [held]
    rwa [same]
  | some r =>
    obtain ⟨distinct, distinct', each⟩ := id h
    have new := h.not_completed held
    rw [PortState.finish_held held]
    refine h.write rfl ⟨distinct.filter _, ?_⟩ (fun j hj => ?_) ?_
    · exact List.nodup_append'.2 ⟨distinct', List.nodup_singleton _, by simpa using new⟩
    · simp [hj]
    · simp

theorem PortState.listsAgree.dispatchHead : (x.dispatchHead i).listsAgree := by
  obtain ⟨distinct, distinct', each⟩ := id h
  unfold PortState.dispatchHead
  cases held : x.slots[i].request? with
  | none =>
    refine h.write rfl ⟨distinct.filter _, distinct'⟩ (fun j hj => by simp [hj]) ⟨?_, (each i).2⟩
    have idle : ¬ ∃ r, x.slots[i] = .waiting r := fun ⟨r, e⟩ => by
      rw [e] at held
      cases held
    simpa using idle
  | some r =>
    refine h.write rfl ⟨distinct.filter _, distinct'⟩ (fun j hj => by simp [hj]) ⟨by simp, ?_⟩
    simpa using h.not_completed held

theorem PortState.listsAgree.goOnLine {r : Request} (dispatched : x.slots[i] = .dispatched r) : (x.goOnLine i).listsAgree := by
  obtain ⟨distinct, distinct', each⟩ := id h
  unfold PortState.goOnLine
  rw [dispatched]
  obtain ⟨waiting, completed⟩ := each i
  rw [dispatched] at waiting completed
  exact h.write (c := .onLine r) rfl ⟨distinct, distinct'⟩ (fun j hj => ⟨.rfl, .rfl⟩) ⟨by simpa using waiting, by simpa using completed⟩

theorem PortState.listsAgree.removeResponse {q : Request} {r : Response} (done : x.slots[i] = .completed q r) :
    (x.removeResponse i).listsAgree := by
  obtain ⟨distinct, distinct', each⟩ := id h
  unfold PortState.removeResponse
  refine h.write rfl ⟨distinct, distinct'.filter _⟩ (fun j hj => by simp [hj]) ?_
  obtain ⟨waiting, -⟩ := each i
  rw [done] at waiting
  simpa using waiting

theorem PortState.listsAgree.take {r : Request} (free : x.slots[i] = .free) : (x.take i r).listsAgree := by
  obtain ⟨distinct, distinct', each⟩ := id h
  obtain ⟨waiting, completed⟩ := each i
  rw [free] at waiting completed
  have new : i ∉ x.waiting := by simpa using waiting
  have undone : i ∉ x.completed := by simpa using completed
  unfold PortState.take
  refine h.write rfl ⟨List.nodup_append'.2 ⟨distinct, List.nodup_singleton _, by simpa using new⟩, distinct'⟩
    (fun j hj => by simp [hj]) ?_
  simpa using undone

end

theorem PortState.listsAgree_empty {x : PortState} (slots : x.slots = Vector.replicate 8 .free) (waiting : x.waiting = [])
    (completed : x.completed = []) : x.listsAgree := by
  refine ⟨by rw [waiting]; exact List.nodup_nil, by rw [completed]; exact List.nodup_nil, fun i => ?_⟩
  rw [slots, waiting, completed]
  simp

end Sys2Proof.Machine
end

section
/-! PROOFS. Slots, lists and the places of requests (R168, R169). -/

namespace Sys2Proof.Machine

/-! ### Slots, lists and places -/

/-- A slot's request stands in a queue, or is carried or attached by an engine. -/
def State.placed (s : State) (x : PortId × SlotIx) : Prop := ∃ g, x ∈ s.queuedSlots g ∨ x ∈ (s.engine g).carriedSlots

/-- What stands on the segments stands once: once on its segment, and on no other. -/
theorem nodup_segments {f : Seg → List (PortId × SlotIx)} :
    (allSegments.flatMap f).Nodup ↔ (∀ g, (f g).Nodup) ∧ ∀ g k, g ≠ k → ∀ x ∈ f g, x ∉ f k := by
  rw [List.nodup_flatMap]
  refine and_congr ⟨fun h g => h g (mem_allSegments g), fun h g _ => h g⟩ ⟨fun h g k n x hx hk => ?_, fun h => ?_⟩
  · have symm : Std.Symm (Function.onFun List.Disjoint f) := ⟨fun a b d => List.Disjoint.symm (l₁ := f a) (l₂ := f b) d⟩
    exact h.forall (mem_allSegments g) (mem_allSegments k) n hx hk
  · have distinct : allSegments.Nodup := List.nodup_finRange 4
    exact distinct.imp fun n x hx hk => h _ _ n x hx hk

section
variable {s t : State} (h : s.slotsAgree)
include h

/-- What an unplaced slot holds matters to its port's lists alone; queues and carried requests may leave. -/
theorem State.slotsAgree.restrict (ports : ∀ p, (t.port p).listsAgree)
    (slots : ∀ x, t.placed x → t.slot x.1 x.2 = s.slot x.1 x.2)
    (queues : ∀ g, (t.queuedSlots g).Sublist (s.queuedSlots g))
    (carried : ∀ g, (t.engine g).carriedSlots.Sublist (s.engine g).carriedSlots) : t.slotsAgree := by
  obtain ⟨-, queued, onLine, dispatched, lined⟩ := h
  obtain ⟨queued, apart⟩ := nodup_segments.1 queued
  obtain ⟨onLine, apart'⟩ := nodup_segments.1 onLine
  refine ⟨ports, nodup_segments.2 ⟨fun g => (queued g).sublist (queues g), fun g k n x hx hk => ?_⟩,
    nodup_segments.2 ⟨fun g => (onLine g).sublist (carried g), fun g k n x hx hk => ?_⟩, fun g x hx => ?_, fun g x hx => ?_⟩
  · exact apart g k n x ((queues g).subset hx) ((queues k).subset hk)
  · exact apart' g k n x ((carried g).subset hx) ((carried k).subset hk)
  · rw [slots x ⟨g, .inl hx⟩]
    exact dispatched g x ((queues g).subset hx)
  · rw [slots x ⟨g, .inr hx⟩]
    exact lined g x ((carried g).subset hx)

/-- A DISPATCHED slot that stands nowhere comes to stand last in a queue. -/
theorem State.slotsAgree.enqueue {g : Seg} {x : PortId × SlotIx} (new : ¬ s.placed x) (held : ∃ r, s.slot x.1 x.2 = .dispatched r)
    (ports : ∀ p, t.port p = s.port p) (queue : t.queuedSlots g = s.queuedSlots g ++ [x])
    (queues : ∀ k, k ≠ g → t.queuedSlots k = s.queuedSlots k)
    (carried : ∀ k, (t.engine k).carriedSlots = (s.engine k).carriedSlots) : t.slotsAgree := by
  obtain ⟨lists, queued, onLine, dispatched, lined⟩ := h
  obtain ⟨queued, apart⟩ := nodup_segments.1 queued
  have slot (p : PortId) (i : SlotIx) : t.slot p i = s.slot p i := by rw [State.slot, ports, State.slot]
  have none (k : Seg) : x ∉ s.queuedSlots k := fun hx => new ⟨k, .inl hx⟩
  have mem (k : Seg) (y : PortId × SlotIx) (hy : y ∈ t.queuedSlots k) : y ∈ s.queuedSlots k ∨ (k = g ∧ y = x) := by
    by_cases hk : k = g
    · subst hk
      rw [queue, List.mem_append, List.mem_singleton] at hy
      exact hy.imp id fun e => ⟨rfl, e⟩
    · exact .inl (queues k hk ▸ hy)
  refine ⟨fun p => by rw [ports]; exact lists p, nodup_segments.2 ⟨fun k => ?_, fun k k' n y hy hy' => ?_⟩, ?_, fun k y hy => ?_,
    fun k y hy => ?_⟩
  · by_cases hk : k = g
    · subst hk
      rw [queue]
      exact List.nodup_append'.2 ⟨queued k, List.nodup_singleton _, by simpa using none k⟩
    · rw [queues k hk]
      exact queued k
  · obtain hy | ⟨rfl, rfl⟩ := mem k y hy
    · obtain hy' | ⟨rfl, rfl⟩ := mem k' y hy'
      · exact apart k k' n y hy hy'
      · exact none k hy
    · obtain hy' | ⟨rfl, -⟩ := mem k' y hy'
      · exact none k' hy'
      · exact n rfl
  · simpa only [carried] using onLine
  · rw [slot]
    obtain hy | ⟨-, rfl⟩ := mem k y hy
    · exact dispatched k y hy
    · exact held
  · rw [slot]
    exact lined k y (carried k ▸ hy)

/-- An ON_LINE slot that stands nowhere comes to be carried or attached by an engine, which may drop what it carried before. -/
theorem State.slotsAgree.carry {g : Seg} {x : PortId × SlotIx} (new : ¬ s.placed x) (held : ∃ r, s.slot x.1 x.2 = .onLine r)
    (ports : ∀ p, t.port p = s.port p) (queues : ∀ k, t.queuedSlots k = s.queuedSlots k)
    (engine : (t.engine g).carriedSlots.Nodup ∧ ∀ y ∈ (t.engine g).carriedSlots, y = x ∨ y ∈ (s.engine g).carriedSlots)
    (engines : ∀ k, k ≠ g → (t.engine k).carriedSlots = (s.engine k).carriedSlots) : t.slotsAgree := by
  obtain ⟨lists, queued, onLine, dispatched, lined⟩ := h
  obtain ⟨onLine, apart⟩ := nodup_segments.1 onLine
  have slot (p : PortId) (i : SlotIx) : t.slot p i = s.slot p i := by rw [State.slot, ports, State.slot]
  have none (k : Seg) : x ∉ (s.engine k).carriedSlots := fun hx => new ⟨k, .inr hx⟩
  have mem (k : Seg) (y : PortId × SlotIx) (hy : y ∈ (t.engine k).carriedSlots) :
      y ∈ (s.engine k).carriedSlots ∨ (k = g ∧ y = x) := by
    by_cases hk : k = g
    · subst hk
      exact (engine.2 y hy).symm.imp id fun e => ⟨rfl, e⟩
    · exact .inl (engines k hk ▸ hy)
  refine ⟨fun p => by rw [ports]; exact lists p, by rw [funext queues]; exact queued,
    nodup_segments.2 ⟨fun k => ?_, fun k k' n y hy hy' => ?_⟩, fun k y hy => ?_, fun k y hy => ?_⟩
  · by_cases hk : k = g
    · subst hk
      exact engine.1
    · rw [engines k hk]
      exact onLine k
  · obtain hy | ⟨rfl, rfl⟩ := mem k y hy
    · obtain hy' | ⟨rfl, rfl⟩ := mem k' y hy'
      · exact apart k k' n y hy hy'
      · exact none k hy
    · obtain hy' | ⟨rfl, -⟩ := mem k' y hy'
      · exact none k' hy'
      · exact n rfl
  · rw [slot]
    exact dispatched k y (queues k ▸ hy)
  · rw [slot]
    obtain hy | ⟨-, rfl⟩ := mem k y hy
    · exact lined k y hy
    · exact held

/-- Where the request of a queued or carried slot stands, it is not WAITING. -/
theorem State.slotsAgree.unplaced_waiting {p : PortId} {i : SlotIx} {r : Request} (waits : s.slot p i = .waiting r) :
    ¬ s.placed (p, i) := by
  obtain ⟨-, -, -, dispatched, lined⟩ := h
  rintro ⟨g, hx | hx⟩
  · obtain ⟨r', e⟩ := dispatched g _ hx
    rw [waits] at e
    cases e
  · obtain ⟨r', e⟩ := lined g _ hx
    rw [waits] at e
    cases e

/-- A queued slot stands in its place of its queue alone, and a carried one with its engine alone. -/
theorem State.slotsAgree.alone {x : PortId × SlotIx} {g : Seg} :
    (x ∈ s.queuedSlots g → (∀ k, k ≠ g → x ∉ s.queuedSlots k) ∧ ∀ k, x ∉ (s.engine k).carriedSlots) ∧
      (x ∈ (s.engine g).carriedSlots → (∀ k, k ≠ g → x ∉ (s.engine k).carriedSlots) ∧ ∀ k, x ∉ s.queuedSlots k) := by
  obtain ⟨-, queued, onLine, dispatched, lined⟩ := h
  have kinds (k k' : Seg) (hq : x ∈ s.queuedSlots k) (hc : x ∈ (s.engine k').carriedSlots) : False := by
    obtain ⟨r, e⟩ := dispatched k x hq
    obtain ⟨r', e'⟩ := lined k' x hc
    rw [e] at e'
    cases e'
  exact ⟨fun hx => ⟨fun k n hk => (nodup_segments.1 queued).2 g k (Ne.symm n) x hx hk, fun k hk => kinds g k hx hk⟩,
    fun hx => ⟨fun k n hk => (nodup_segments.1 onLine).2 g k (Ne.symm n) x hx hk, fun k hk => kinds k g hk hx⟩⟩

end
end Sys2Proof.Machine
end

section
/-! PROOFS. `State.KeepsSlots`: events that keep slots and lists in agreement, and the end of a pass. -/

namespace Sys2Proof.Machine

/-! ### Events that keep slots and lists in agreement -/

/-- From `s` to `t` the agreement of slots and lists is kept. -/
structure State.KeepsSlots (s t : State) : Prop where
  agree : s.slotsAgree → t.slotsAgree

/-- Where requests stand depends on the queues and on what the engines carry. -/
theorem State.placed_congr {s t : State} (queues : ∀ g, t.queuedSlots g = s.queuedSlots g)
    (carried : ∀ g, (t.engine g).carriedSlots = (s.engine g).carriedSlots) (x : PortId × SlotIx) : t.placed x ↔ s.placed x := by
  unfold State.placed
  simp only [queues, carried]

/-- An answer to a request that stands nowhere (R169). -/
theorem State.slotsAgree.finish {s : State} (h : s.slotsAgree) {p : PortId} {i : SlotIx} (free : ¬ s.placed (p, i)) (a : Answer) :
    (s.finish p i a).slotsAgree := by
  have placed (x : PortId × SlotIx) : (s.finish p i a).placed x ↔ s.placed x :=
    State.placed_congr (fun g => by simp [State.queuedSlots]) (fun g => by simp) x
  refine h.restrict (fun q => ?_) (fun x hx => ?_) (fun g => by simp [State.queuedSlots]) fun g => by simp
  · rw [State.finish_port]
    split
    · exact (h.1 p).finish a
    · exact h.1 q
  · exact State.finish_slot_ne _ _ _ _ _ _ fun e => free ((placed _).1 (e ▸ hx))

theorem State.slotsAgree.answering {s : State} (h : s.slotsAgree) {l : List (PortId × SlotIx × Answer)}
    (free : ∀ x ∈ askedSlots l, ¬ s.placed x) : (s.answering l).slotsAgree := by
  induction l generalizing s with
  | nil => exact h
  | cons x l ih =>
    obtain ⟨p, i, a⟩ := x
    refine ih (h.finish (free (p, i) (List.mem_cons_self ..)) a) fun y hy placed => free y (List.mem_cons_of_mem _ hy) ?_
    exact (State.placed_congr (fun g => by simp [State.queuedSlots]) (fun g => by simp) y).1 placed

namespace State.KeepsSlots

theorem refl (s : State) : s.KeepsSlots s := ⟨id⟩

theorem trans {s t u : State} (h : s.KeepsSlots t) (k : t.KeepsSlots u) : s.KeepsSlots u := ⟨k.agree ∘ h.agree⟩

theorem ite {s t u : State} {c : Prop} [Decidable c] (yes : c → s.KeepsSlots t) (no : ¬ c → s.KeepsSlots u) :
    s.KeepsSlots (if c then t else u) := by
  split
  · exact yes ‹_›
  · exact no ‹_›

/-- A change of the directory, of notices and of resolution lists. -/
theorem directory {s t : State} (d : s.DirectoryOnly t) : s.KeepsSlots t := .mk fun h => by
  have engine (g : Seg) : (t.engine g).queue = (s.engine g).queue ∧ (t.engine g).carriedSlots = (s.engine g).carriedSlots := by
    obtain ⟨l, hl⟩ := d.engine g
    rw [hl]
    exact ⟨rfl, rfl⟩
  refine h.restrict (fun p => (h.1 p).congr (d.slots p) (d.waiting p) (d.completed p)) (fun x _ => d.slot ..) (fun g => ?_) fun g => ?_
  · rw [State.queuedSlots, (engine g).1]
    exact .refl _
  · rw [(engine g).2]

/-- A port's registers other than its slots and lists. -/
theorem setPort {s : State} {p : PortId} {x : PortState} (slots : x.slots = (s.port p).slots) (waiting : x.waiting = (s.port p).waiting)
    (completed : x.completed = (s.port p).completed) : s.KeepsSlots (s.setPort p x) := .mk fun h => by
  have port (q : PortId) : ((s.setPort p x).port q).slots = (s.port q).slots ∧
      ((s.setPort p x).port q).waiting = (s.port q).waiting ∧ ((s.setPort p x).port q).completed = (s.port q).completed := by
    rw [State.setPort_port]
    split
    · subst_vars
      exact ⟨slots, waiting, completed⟩
    · exact ⟨rfl, rfl, rfl⟩
  refine h.restrict (fun q => ?_) (fun y _ => ?_) (fun g => by simp [State.queuedSlots]) fun g => by simp
  · obtain ⟨s1, w, c⟩ := port q
    exact (h.1 q).congr s1 w c
  · unfold State.slot
    rw [(port y.1).1]

/-- An engine whose queue and whose carried requests, if they change, only lose some. -/
theorem updEngine (s : State) (g : Seg) {f : Engine → Engine} (queue : (f (s.engine g)).queue.Sublist (s.engine g).queue)
    (carried : (f (s.engine g)).carriedSlots.Sublist (s.engine g).carriedSlots) : s.KeepsSlots (s.updEngine g f) := .mk fun h => by
  refine h.restrict (fun p => by rw [State.updEngine_port]; exact h.1 p) (fun x _ => State.updEngine_slot ..) (fun k => ?_) fun k => ?_
  · rw [State.queuedSlots, State.updEngine_engine]
    split
    · subst_vars
      exact queue.map _
    · exact .refl _
  · rw [State.updEngine_engine]
    split
    · subst_vars
      exact carried
    · exact .refl _

/-- An engine whose queue, pass and activity stay. -/
theorem updEngine_same (s : State) (g : Seg) {f : Engine → Engine} (queue : ∀ e, (f e).queue = e.queue)
    (pass : ∀ e, (f e).pass.attached = e.pass.attached) (activity : ∀ e, (f e).activity = e.activity) :
    s.KeepsSlots (s.updEngine g f) := by
  refine updEngine s g (by rw [queue]) ?_
  unfold Engine.carriedSlots
  rw [pass, activity]

theorem updLine (s : State) (g : Seg) (f : Line → Line) : s.KeepsSlots (s.updLine g f) :=
  updEngine_same s g (fun _ => rfl) (fun _ => rfl) fun _ => rfl

/-- The counts of a pass. -/
theorem updPass (s : State) (g : Seg) {f : PassRecord → PassRecord} (attached : ∀ c, (f c).attached = c.attached) :
    s.KeepsSlots (s.updPass g f) := updEngine_same s g (fun _ => rfl) (fun e => attached e.pass) fun _ => rfl

/-- The next attempt or the next transaction of an activity. -/
theorem withWork (s : State) (g : Seg) {a : Activity} (ha : (s.engine g).activity = some a) (w : Work) (n : Nat) (f : Line → Line) :
    s.KeepsSlots (s.updEngine g fun e => { e with activity := some { a with work := w, retries := n }, line := f e.line }) := by
  refine updEngine s g (.refl _) ?_
  unfold Engine.carriedSlots
  rw [ha]
  obtain ⟨w', o, n'⟩ := a
  obtain _ | ⟨p, _ | i⟩ := o <;> exact .refl _

end State.KeepsSlots

/-! ### The end of a pass and of an activity -/

theorem Engine.passEnded_carriedSlots (e : Engine) : e.passEnded.carriedSlots.Sublist e.carriedSlots := by
  unfold Engine.carriedSlots
  refine List.Sublist.append ?_ (.refl _)
  unfold Engine.passEnded
  dsimp only
  split
  · exact List.nil_sublist _
  · exact .refl _

/-- What stood with an engine, and stands there no more after a change of it, stands nowhere. -/
theorem State.slotsAgree.left {s : State} (h : s.slotsAgree) {g : Seg} {f : Engine → Engine} {x : PortId × SlotIx}
    (queue : (f (s.engine g)).queue.Sublist (s.engine g).queue)
    (was : (x ∈ s.queuedSlots g ∧ x ∉ (f (s.engine g)).queue.map fun y => (y.port, y.slot)) ∨ x ∈ (s.engine g).carriedSlots)
    (gone : x ∉ (f (s.engine g)).carriedSlots) : ¬ (s.updEngine g f).placed x := by
  rintro ⟨k, hk⟩
  rw [State.queuedSlots, State.updEngine_engine] at hk
  by_cases hg : k = g
  · subst hg
    rw [if_pos rfl] at hk
    obtain hk | hk := hk
    · obtain ⟨-, left⟩ | on := was
      · exact left hk
      · exact (h.alone.2 on).2 k ((queue.map _).subset hk)
    · exact gone hk
  · rw [if_neg hg] at hk
    obtain ⟨queued, -⟩ | on := was
    · obtain ⟨queues, engines⟩ := h.alone.1 queued
      exact hk.elim (queues k hg) (engines k)
    · obtain ⟨engines, queues⟩ := h.alone.2 on
      exact hk.elim (queues k) (engines k hg)

theorem State.slotsAgree.carried_nodup {s : State} (h : s.slotsAgree) (g : Seg) : (s.engine g).carriedSlots.Nodup :=
  (nodup_segments.1 h.2.2.1).1 g

theorem State.KeepsSlots.endPass (s : State) (g : Seg) (r : EndReason) : s.KeepsSlots (s.endPass g r) := .mk fun h => by
  rw [State.endPass_answering, ← State.answering_updEngine]
  refine ((State.KeepsSlots.updEngine s g (.refl _) (Engine.passEnded_carriedSlots _)).agree h).answering fun x hx => ?_
  have attached := (Engine.askedSlots_passAnswers _ _).subset hx
  cases active : (s.engine g).pass.active with
  | false => simp [Engine.passAnswers, active, askedSlots] at hx
  | true =>
    have distinct := h.carried_nodup g
    unfold Engine.carriedSlots at distinct
    refine h.left (.refl _) (.inr (List.mem_append_left _ attached)) fun still => ?_
    unfold Engine.carriedSlots Engine.passEnded at still
    rw [active] at still
    exact (List.nodup_append'.1 distinct).2.2 attached (by simpa using still)

end Sys2Proof.Machine
end

section
/-! PROOFS. The end of an activity and the final outcomes keep slots and lists in agreement (R72, R84, R169). -/

namespace Sys2Proof.Machine

/-! ### Requests that leave an engine -/

theorem State.DirectoryOnly.activity {s t : State} (d : s.DirectoryOnly t) (g : Seg) : (t.engine g).activity = (s.engine g).activity := by
  obtain ⟨l, h⟩ := d.engine g
  rw [h]

theorem State.DirectoryOnly.placed {s t : State} (d : s.DirectoryOnly t) (x : PortId × SlotIx) : t.placed x ↔ s.placed x := by
  have engine (g : Seg) : t.queuedSlots g = s.queuedSlots g ∧ (t.engine g).carriedSlots = (s.engine g).carriedSlots := by
    obtain ⟨l, h⟩ := d.engine g
    rw [State.queuedSlots, h]
    exact ⟨rfl, rfl⟩
  exact State.placed_congr (fun g => (engine g).1) (fun g => (engine g).2) x

/-- An engine whose queue, and whose carried requests, only lose some brings no request to a place. -/
theorem State.placed_updEngine {s : State} {g : Seg} {f : Engine → Engine} {x : PortId × SlotIx}
    (queue : (f (s.engine g)).queue.Sublist (s.engine g).queue)
    (carried : (f (s.engine g)).carriedSlots.Sublist (s.engine g).carriedSlots) (h : (s.updEngine g f).placed x) : s.placed x := by
  obtain ⟨k, hk⟩ := h
  refine ⟨k, ?_⟩
  rw [State.queuedSlots, State.updEngine_engine] at hk
  split at hk
  · subst_vars
    exact hk.imp ((queue.map _).subset ·) (carried.subset ·)
  · exact hk

theorem Engine.carriedSlots_idle (e : Engine) (idle : e.activity = none) : e.carriedSlots = e.pass.attached := by
  unfold Engine.carriedSlots
  rw [idle]
  exact List.append_nil _

theorem Engine.attached_carriedSlots (e : Engine) : e.pass.attached.Sublist e.carriedSlots := by
  unfold Engine.carriedSlots
  exact List.sublist_append_left ..

/-- The request of an activity that is over, with its pass as it was, stands nowhere. -/
theorem State.slotsAgree.owner_left {s : State} (h : s.slotsAgree) {g : Seg} {a : Activity} (ha : (s.engine g).activity = some a)
    {f : Engine → Engine} (queue : (f (s.engine g)).queue = (s.engine g).queue)
    (pass : (f (s.engine g)).pass.attached = (s.engine g).pass.attached) (idle : (f (s.engine g)).activity = none)
    {b : Answer} {x : PortId × SlotIx} (hx : x ∈ askedSlots (ownerAnswers a.owner b)) : ¬ (s.updEngine g f).placed x := by
  have distinct := h.carried_nodup g
  rw [Engine.carriedSlots_eq ha b] at distinct
  refine h.left (by rw [queue]) (.inr ?_) ?_
  · rw [Engine.carriedSlots_eq ha b]
    exact List.mem_append_right _ hx
  · rw [Engine.carriedSlots_idle _ idle, pass]
    exact fun attached => (List.nodup_append'.1 distinct).2.2 attached hx

/-! ### The end of an activity -/

theorem Engine.afterActivity_fields (e : Engine) :
    e.afterActivity.queue = e.queue ∧ e.afterActivity.pass = e.pass ∧ e.afterActivity.activity = none := by
  unfold Engine.afterActivity
  split <;> exact ⟨rfl, rfl, rfl⟩

theorem Engine.afterActivity_carriedSlots (e : Engine) : e.afterActivity.carriedSlots.Sublist e.carriedSlots := by
  obtain ⟨-, pass, idle⟩ := e.afterActivity_fields
  rw [Engine.carriedSlots_idle _ idle, pass]
  exact e.attached_carriedSlots

namespace State.KeepsSlots

theorem ended (s : State) (g : Seg) : s.KeepsSlots (s.updEngine g Engine.afterActivity) :=
  .updEngine s g (by rw [(s.engine g).afterActivity_fields.1]) (Engine.afterActivity_carriedSlots _)

theorem endActivity (s : State) (g : Seg) : s.KeepsSlots (s.endActivity g) := by
  unfold State.endActivity
  exact .ite (fun _ => ended s g) fun _ => (ended s g).trans (.endPass ..)

/-- The activity's request is answered as the activity ends. -/
theorem ownerEnds (s : State) {g : Seg} {a : Activity} (ha : (s.engine g).activity = some a) (b : Answer) :
    s.KeepsSlots ((s.finishOwner a.owner b).endActivity g) := .mk fun h => by
  obtain ⟨queue, pass, idle⟩ := (s.engine g).afterActivity_fields
  have told : ((s.finishOwner a.owner b).updEngine g Engine.afterActivity).slotsAgree := by
    rw [State.finishOwner_answering, ← State.answering_updEngine]
    exact ((ended s g).agree h).answering fun x hx => h.owner_left ha queue (congrArg PassRecord.attached pass) idle hx
  unfold State.endActivity
  exact (ite (fun _ => .refl _) fun _ => .endPass ..).agree told

theorem endContest (s : State) (g : Seg) : s.KeepsSlots (s.endContest g) := by
  unfold State.endContest
  exact (ite (fun _ => .endPass ..) fun _ => .refl s).trans (.endActivity ..)

theorem countLost (s : State) (g : Seg) : s.KeepsSlots (s.updPass g PassRecord.countLost) := .updPass s g fun _ => rfl

theorem countContest (s : State) (g : Seg) : s.KeepsSlots (s.updPass g PassRecord.countContest) := .updPass s g fun _ => rfl

theorem stepTo {s : State} {g : Seg} {a : Activity} (ha : (s.engine g).activity = some a) (w : Work) : s.KeepsSlots (s.stepTo g a w) :=
  .withWork s g ha w 0 fun l => { l with attempt := some (newAttempt w.frame) }

theorem retry {s : State} {g : Seg} {a : Activity} (ha : (s.engine g).activity = some a) : s.KeepsSlots (s.retry g a) :=
  .withWork s g ha a.work (a.retries + 1) fun l => { l with attempt := some (newAttempt a.work.frame) }

/-- A ladder or a transaction whose effect is on the directory ends with its answer. -/
theorem concluded {s t : State} {g : Seg} {a : Activity} (ha : (s.engine g).activity = some a) (d : s.DirectoryOnly t) (b : Answer) :
    s.KeepsSlots ((t.finishOwner a.owner b).endActivity g) :=
  (directory d).trans (ownerEnds t ((d.activity g).trans ha) b)

/-! ### Final outcomes -/

theorem moveOutcome {s : State} {g : Seg} {a : Activity} (ha : (s.engine g).activity = some a) (step : MoveStep) (h : Handle)
    (addr target : Byte) (x : Ident) (o : LineOutcome) : s.KeepsSlots (s.moveOutcome g a step h addr target x o) := by
  have go (n : MoveStep) : s.KeepsSlots (s.stepTo g a (.move n h addr target x)) := stepTo ha _
  have ends {t : State} (d : s.DirectoryOnly t) (st : Status) (code : Byte) (n : MoveStep) :
      s.KeepsSlots (t.finishMove g a h st code n) := concluded ha d _
  have confirmed : s.DirectoryOnly (s.endMove h (·.confirm h)) := .endMove _ _ fun _ => .confirm ..
  have disputed : s.DirectoryOnly (s.endMove h fun t => t.makeConflict g h) := .endMove _ _ fun _ => .makeConflict ..
  have absent : s.DirectoryOnly (s.endMove h fun t => t.makeAbsent h (t.entry h).silence) := .endMove _ _ fun _ => .makeAbsent ..
  unfold State.moveOutcome
  cases step with
  | one =>
    cases o with
    | accept d => exact go .two
    | refuse c => exact ends confirmed ..
    | noReply | framing => exact go .three
    | collision => exact ends disputed ..
    | contention | sent | stuck => exact ends (.returnEntry ..) ..
  | two =>
    cases o with
    | accept d => exact ite (fun _ => ends (.completeMove ..) ..) fun _ => go .stray
    | collision => exact go .stray
    | refuse | noReply | framing | contention | sent | stuck => exact go .three
  | stray => exact go .three
  | three =>
    cases o with
    | accept d => exact ite (fun _ => ends confirmed ..) fun _ => ends disputed ..
    | noReply | framing => exact ends absent ..
    | collision => exact ends disputed ..
    | contention | refuse | sent | stuck => exact ends (.returnEntry ..) ..

theorem contestLost (s : State) (g : Seg) : s.KeepsSlots (s.contestLost g) :=
  (updPass s g (f := fun c => c.countContest.countLost) fun _ => rfl).trans (.endContest ..)

theorem noContender (s : State) (g : Seg) : s.KeepsSlots (s.noContender g) := by
  unfold State.noContender
  exact (countContest s g).trans ((ite (fun _ => .endPass ..) fun _ => .refl _).trans (.endActivity ..))

theorem contestWon {s : State} {g : Seg} {a : Activity} (ha : (s.engine g).activity = some a) (w : Ident) (c : Byte) :
    s.KeepsSlots (s.contestWon g a w c) := by
  have active : ((s.updPass g PassRecord.countContest).engine g).activity = some a := by
    rw [State.updPass_eq, State.updEngine_engine_same]
    exact ha
  have follows {t : State} (d : (s.updPass g PassRecord.countContest).DirectoryOnly t) (v : Work) : s.KeepsSlots (t.stepTo g a v) :=
    ((countContest s g).trans (directory d)).trans (stepTo ((d.activity g).trans active) v)
  unfold State.contestWon
  dsimp only
  cases s.decide g w with
  | newJoin adr | transfer h adr => exact follows (.setMap ..) _
  | rejoin h => exact follows (.refl _) _
  | park n => exact follows (.raise ..) _

theorem parkOutcome (s : State) (g : Seg) (o : LineOutcome) : s.KeepsSlots (s.parkOutcome g o) := by
  have parked : s.KeepsSlots (s.updEngine g fun e =>
      { e with parked := min (e.parked + 1) 255, pass := { e.pass with parked := e.pass.parked + 1 } }) :=
    .updEngine_same s g (fun _ => rfl) (fun _ => rfl) fun _ => rfl
  unfold State.parkOutcome
  exact (ite (fun _ => parked) fun _ => countLost s g).trans (.endContest ..)

/-- A join, a rejoin or a transfer is counted and its contest ends. -/
theorem counted {s t : State} (d : s.DirectoryOnly t) (g : Seg) {f : PassRecord → PassRecord} (attached : ∀ c, (f c).attached = c.attached) :
    s.KeepsSlots ((t.updPass g f).endContest g) := ((directory d).trans (updPass t g attached)).trans (.endContest ..)

theorem freshDecision {s : State} {g : Seg} {a : Activity} (ha : (s.engine g).activity = some a) (w : Ident) (c adr : Byte) :
    s.KeepsSlots (s.freshDecision g a w c adr) := by
  have parks (n : Notice) : s.KeepsSlots (s.parkAtReply g a n w adr) := by
    have d : s.DirectoryOnly ((s.setMap g adr .empty).raise n) := (State.DirectoryOnly.setMap ..).trans (.raise ..)
    exact (directory d).trans (stepTo ((d.activity g).trans ha) _)
  unfold State.freshDecision
  split
  · split
    · exact counted (((State.DirectoryOnly.setMap ..).trans (.change ..)).trans (.raise ..)) g fun _ => rfl
    · exact parks _
  · split
    · exact counted ((((State.DirectoryOnly.setMap ..).trans (.setMap ..)).trans (.change ..)).trans (.raise ..)) g fun _ => rfl
    · exact counted ((((State.DirectoryOnly.setMap ..).trans (.setMap ..)).trans (.change ..)).trans (.raise ..)) g fun _ => rfl
    · exact parks _

theorem applyRejoin (s : State) (g : Seg) (h : Handle) (w : Ident) (c adr : Byte) : s.KeepsSlots (s.applyRejoin g h w c adr) := by
  have lost : s.KeepsSlots ((s.updPass g PassRecord.countLost).endContest g) := counted (.refl s) g fun _ => rfl
  unfold State.applyRejoin
  dsimp only
  split
  · split
    case h_1 | h_2 | h_3 | h_4 | h_5 => exact counted (.change ..) g fun _ => rfl
    case h_6 | h_7 => exact lost
  · exact lost

theorem assignOutcome {s : State} {g : Seg} {a : Activity} (ha : (s.engine g).activity = some a) (kind : JoinKind) (w : Ident) (c adr : Byte)
    (o : LineOutcome) : s.KeepsSlots (s.assignOutcome g a kind w c adr o) := by
  unfold State.assignOutcome State.assignFailed
  cases kind with
  | rejoin h => exact ite (fun _ => .applyRejoin ..) fun _ => counted (.refl s) g fun _ => rfl
  | newJoin | transfer => exact ite (fun _ => freshDecision ha ..) fun _ => counted (.setMap ..) g fun _ => rfl

/-- Every final outcome of the activity in progress. -/
theorem finalOutcome {s : State} {g : Seg} {a : Activity} (ha : (s.engine g).activity = some a) (o : LineOutcome) :
    s.KeepsSlots (s.finalOutcome g a o) := by
  unfold State.finalOutcome
  split
  case h_1 | h_2 => exact concluded ha (.hostOutcome ..) _
  case h_3 => exact concluded ha (.refl s) _
  case h_4 => exact (directory (.pollOutcome ..)).trans (.endActivity ..)
  case h_5 | h_12 => exact stepTo ha _
  case h_6 => exact (directory (.resolutionOutcome ..)).trans (.endActivity ..)
  case h_7 => exact moveOutcome ha ..
  case h_8 => exact concluded ha (.retireEffect ..) _
  case h_9 =>
    refine trans (ite (fun _ => ?_) fun _ => .refl s) (.endActivity ..)
    exact .updEngine_same s g (fun _ => rfl) (fun _ => rfl) fun _ => rfl
  case h_10 => exact contestLost s g
  case h_11 => exact assignOutcome ha ..
  case h_13 => exact parkOutcome ..

end State.KeepsSlots
end Sys2Proof.Machine
end

section
/-! PROOFS. Flushes, FAULT and the events of the line keep slots and lists in agreement (R91, R95, R169). -/

namespace Sys2Proof.Machine

/-! ### Queues that empty -/

theorem State.DirectoryOnly.emptied (s : State) (g : Seg) :
    (s.updEngine g fun e => { e with queue := [] }).DirectoryOnly (s.emptied g) := .returnItems ..

theorem State.placed_emptied {s : State} {g : Seg} {x : PortId × SlotIx} (h : (s.emptied g).placed x) : s.placed x :=
  State.placed_updEngine (List.nil_sublist _) (.refl _) (((State.DirectoryOnly.emptied s g).placed x).1 h)

theorem State.KeepsSlots.emptied (s : State) (g : Seg) : s.KeepsSlots (s.emptied g) :=
  (State.KeepsSlots.updEngine s g (List.nil_sublist _) (.refl _)).trans (.directory (.emptied s g))

/-- The removed requests stand nowhere. -/
theorem State.slotsAgree.queue_left {s : State} (h : s.slotsAgree) {g : Seg} {x : PortId × SlotIx} (hx : x ∈ s.queuedSlots g) :
    ¬ (s.emptied g).placed x := fun placed => by
  have gone : x ∉ (s.engine g).carriedSlots := (h.alone.1 hx).2 g
  exact h.left (List.nil_sublist _) (.inl ⟨hx, List.not_mem_nil⟩) gone (((State.DirectoryOnly.emptied s g).placed x).1 placed)

theorem State.KeepsSlots.finishWaiting (s : State) (g : Seg) (c : Status) (p : PortId) :
    s.KeepsSlots (s.finishWaiting g c p) := .mk fun h => by
  unfold State.finishWaiting
  split
  · rename_i i q waits
    obtain ⟨r, slot⟩ := State.waitingFor_slot waits
    exact h.finish (h.unplaced_waiting slot) _
  · exact h

/-- A flush, where the request it answers on the line stands nowhere by then (R91, R95). -/
theorem State.slotsAgree.flushQueue {s : State} (h : s.slotsAgree) (g : Seg) (c : Status) (r : EndReason) {f : State → State}
    {l : List (PortId × SlotIx × Answer)} (hf : f (s.emptied g) = (s.emptied g).answering l)
    (free : ∀ x ∈ askedSlots l, ¬ (s.emptied g).placed x) : (s.flushQueue g c r f).slotsAgree := by
  rw [State.flushQueue_eq, hf, State.answerItems_eq, ← State.answering_append]
  have answered := ((State.KeepsSlots.emptied s g).agree h).answering
    (l := l ++ ((s.emptied g).answering l).itemAnswers c r (s.engine g).queue)
    fun x hx => by
    rw [askedSlots_append, List.mem_append, State.askedSlots_itemAnswers] at hx
    exact hx.elim (free x) h.queue_left
  exact ((State.KeepsSlots.finishWaiting ..).trans (.finishWaiting ..)).agree answered

theorem State.KeepsSlots.switchOff (s : State) (g : Seg) : s.KeepsSlots (s.switchOff g) := by
  have flushed : s.KeepsSlots (s.flushQueue g .segmentOff .off id) := .mk fun h =>
    h.flushQueue g _ _ (l := []) rfl fun x hx => nomatch hx
  have idled := flushed.trans (.updEngine_same _ g (f := fun e => { e with pollDue := false }) (fun _ => rfl) (fun _ => rfl) fun _ => rfl)
  unfold State.switchOff
  dsimp only
  cases (s.engine g).state with
  | idle | fault => exact (idled.trans (.endPass ..)).trans (.updEngine_same _ g (fun _ => rfl) (fun _ => rfl) fun _ => rfl)
  | transaction | contest => exact idled.trans (.updEngine_same _ g (fun _ => rfl) (fun _ => rfl) fun _ => rfl)
  | off => exact idled

/-! ### FAULT -/

theorem Work.stuckCounts_attached (w : Work) (c : PassRecord) : (w.stuckCounts c).attached = c.attached := by
  unfold Work.stuckCounts
  split <;> rfl

theorem State.placed_stuckEffect (s : State) (g : Seg) (w : Work) (x : PortId × SlotIx) : (s.stuckEffect g w).placed x ↔ s.placed x := by
  refine State.placed_congr (fun k => ?_) (fun k => ?_) x
  · rw [State.queuedSlots, State.stuckEffect_engine, State.queuedSlots]
    split
    · subst_vars
      rfl
    · rfl
  · rw [State.stuckEffect_engine]
    split
    · subst_vars
      unfold Engine.carriedSlots
      rw [Work.stuckCounts_attached]
    · rfl

theorem State.KeepsSlots.stuckEffect (s : State) (g : Seg) (w : Work) : s.KeepsSlots (s.stuckEffect g w) := by
  unfold State.stuckEffect
  split
  case h_1 | h_2 => exact .directory (.returnEntry ..)
  case h_3 | h_4 | h_5 => exact .countLost s g
  case h_6 | h_7 => exact (State.KeepsSlots.directory (.setMap ..)).trans (.countLost ..)
  all_goals exact .refl s

theorem State.KeepsSlots.enterFault {s : State} {g : Seg} {a : Activity} (ha : (s.engine g).activity = some a) :
    s.KeepsSlots (s.enterFault g a) := by
  have idle : s.KeepsSlots (s.updEngine g Engine.cleared) := by
    refine .updEngine s g (.refl _) ?_
    rw [Engine.carriedSlots_idle _ rfl]
    exact (s.engine g).attached_carriedSlots
  have flushed : s.KeepsSlots
      (((s.updEngine g Engine.cleared).stuckEffect g a.work).flushQueue g .segmentFault .fault (State.answerStuck a)) := .mk fun h =>
    ((idle.trans (.stuckEffect ..)).agree h).flushQueue g _ _ (State.finishOwner_answering ..) fun x hx placed =>
      h.owner_left ha rfl rfl rfl hx ((State.placed_stuckEffect ..).1 (State.placed_emptied placed))
  unfold State.enterFault
  dsimp only
  refine ((flushed.trans (.endPass _ g .fault)).trans (.updEngine_same _ g (fun _ => ?_) (fun _ => ?_) fun _ => ?_)).trans
    (State.KeepsSlots.directory (State.DirectoryOnly.raise _ .segFault)) <;> rfl

/-! ### Events of the line -/

namespace State.KeepsSlots

theorem attemptEnds (s : State) (g : Seg) (o : LineOutcome) : s.KeepsSlots (s.attemptEnds g o) := by
  unfold State.attemptEnds
  dsimp only
  refine (updLine s g fun l => { l with attempt := none }).trans ?_
  split
  · exact .refl _
  · rename_i a ha
    exact ite (fun _ => enterFault ha) fun _ => ite (fun _ => retry ha) fun _ => finalOutcome ha o

/-- The line is measured as its attempt ends. -/
theorem measuredEnd (s : State) (g : Seg) (f : Line → Line) (o : LineOutcome) : s.KeepsSlots ((s.updLine g f).attemptEnds g o) :=
  (updLine s g f).trans (.attemptEnds ..)

theorem updAttempt (s : State) (g : Seg) (f : Attempt → Attempt) : s.KeepsSlots (s.updAttempt g f) := .updLine ..

theorem idleGap (s : State) (g : Seg) (run : Nat) : s.KeepsSlots (s.idleGap g run) :=
  ite (fun _ => (updLine ..).trans (.updAttempt ..)) fun _ => .refl s

theorem stuckLine (s : State) (g : Seg) (run : Nat) : s.KeepsSlots (s.stuckLine g run) :=
  ite (fun _ => .measuredEnd ..) fun _ => .refl s

theorem contend (s : State) (g : Seg) (k : Nat) : s.KeepsSlots (s.contend g k) := by
  unfold State.contend
  split
  · exact ite (fun _ => (updLine ..).trans (.updAttempt ..)) fun _ => .refl s
  · exact .refl s

theorem releaseBreak (s : State) (g : Seg) (run : Nat) : s.KeepsSlots (s.releaseBreak g run) :=
  ite (fun _ => ite (fun _ => .measuredEnd ..) fun _ => .updLine ..) fun _ => .refl s

theorem acknowledge (s : State) (g : Seg) (dominant : Bool) : s.KeepsSlots (s.acknowledge g dominant) := by
  unfold State.acknowledge
  split
  · exact ite (fun _ => ite (fun _ => .updAttempt ..) fun _ => .attemptEnds ..) fun _ => .refl s
  · exact .refl s

theorem frameSent (s : State) (g : Seg) : s.KeepsSlots (s.frameSent g) := by
  unfold State.frameSent
  split
  · exact ite (fun _ => ite (fun _ => .updAttempt ..) fun _ => ite (fun _ => .updAttempt ..) fun _ => .attemptEnds ..) fun _ => .refl s
  · exact .refl s

theorem replyTimeout (s : State) (g : Seg) (n : Nat) : s.KeepsSlots (s.replyTimeout g n) :=
  ite (fun _ => .attemptEnds ..) fun _ => .refl s

theorem gapTimeout (s : State) (g : Seg) (n : Nat) : s.KeepsSlots (s.gapTimeout g n) :=
  ite (fun _ => .attemptEnds ..) fun _ => .refl s

theorem replyChar (s : State) (g : Seg) (ch : LineChar) : s.KeepsSlots (s.replyChar g ch) := by
  unfold State.replyChar
  split
  · refine ite (fun _ => ite (fun _ => ?_) fun _ => .updAttempt ..) fun _ => .refl s
    split
    · exact .updAttempt ..
    · exact .attemptEnds ..
    · exact .attemptEnds ..
  · exact .refl s

theorem runEnds (s : State) (g : Seg) (run : Nat) : s.KeepsSlots (s.runEnds g run) :=
  ite (fun _ => .measuredEnd ..) fun _ => .refl s

theorem breakSeen (s : State) (g : Seg) (run : Nat) : s.KeepsSlots (s.breakSeen g run) :=
  ite (fun _ => ite (fun _ => .measuredEnd ..) fun _ => ite (fun _ => (updLine ..).trans (.contestLost ..)) fun _ => .refl s)
    fun _ => .refl s

theorem clearAttempt (s : State) (g : Seg) : s.KeepsSlots (s.clearAttempt g) := .updLine ..

theorem slotsEnd (s : State) (g : Seg) (read : Ident) : s.KeepsSlots (s.slotsEnd g read) :=
  ite (fun _ => ite (fun _ => (clearAttempt ..).trans (.noContender ..)) fun _ =>
    ite (fun _ => (clearAttempt ..).trans (.contestLost ..)) fun _ => .updAttempt ..) fun _ => .refl s

theorem classChar (s : State) (g : Seg) (ch : LineChar) : s.KeepsSlots (s.classChar g ch) := by
  unfold State.classChar
  split
  · rename_i a act ht ha
    refine ite (fun _ => ite (fun _ => (clearAttempt ..).trans (.contestWon ?_ ..)) fun _ => (clearAttempt ..).trans (.contestLost ..))
      fun _ => .refl s
    rw [State.clearAttempt, State.updLine_eq, State.updEngine_engine_same]
    exact ha
  · exact .refl s

theorem classTimeout (s : State) (g : Seg) (n : Nat) : s.KeepsSlots (s.classTimeout g n) :=
  ite (fun _ => (clearAttempt ..).trans (.contestLost ..)) fun _ => .refl s

end State.KeepsSlots
end Sys2Proof.Machine
end

section
/-! PROOFS. Admission and dispatch keep slots and lists in agreement (R78, R169, R170). -/

namespace Sys2Proof.Machine

/-! ### Slots that stand nowhere -/

/-- What stands somewhere in `t` stood there in `s`. -/
structure State.Leaves (s t : State) : Prop where
  stood : ∀ x, t.placed x → s.placed x

namespace State.Leaves

theorem trans {s t u : State} (h : s.Leaves t) (k : t.Leaves u) : s.Leaves u := ⟨fun x hx => h.stood x (k.stood x hx)⟩

theorem directory {s t : State} (d : s.DirectoryOnly t) : s.Leaves t := ⟨fun x => (d.placed x).1⟩

theorem updEngine (s : State) (g : Seg) {f : Engine → Engine} (queue : (f (s.engine g)).queue.Sublist (s.engine g).queue)
    (carried : (f (s.engine g)).carriedSlots.Sublist (s.engine g).carriedSlots) : s.Leaves (s.updEngine g f) :=
  ⟨fun _ => State.placed_updEngine queue carried⟩

theorem updEngine_same (s : State) (g : Seg) {f : Engine → Engine} (queue : ∀ e, (f e).queue = e.queue)
    (pass : ∀ e, (f e).pass.attached = e.pass.attached) (activity : ∀ e, (f e).activity = e.activity) : s.Leaves (s.updEngine g f) := by
  refine updEngine s g (by rw [queue]) ?_
  unfold Engine.carriedSlots
  rw [pass, activity]

theorem setPort (s : State) (p : PortId) (x : PortState) : s.Leaves (s.setPort p x) := .mk fun y =>
  (State.placed_congr (fun g => by simp [State.queuedSlots]) (fun g => by simp) y).1

theorem finish (s : State) (p : PortId) (i : SlotIx) (a : Answer) : s.Leaves (s.finish p i a) := by
  rw [State.finish, State.updPort_eq]
  exact setPort ..

theorem answering (s : State) (l : List (PortId × SlotIx × Answer)) : s.Leaves (s.answering l) := .mk fun x =>
  (State.placed_congr (fun g => by simp [State.queuedSlots]) (fun g => by simp) x).1

theorem endPass (s : State) (g : Seg) (r : EndReason) : s.Leaves (s.endPass g r) := by
  rw [State.endPass_answering]
  exact (answering ..).trans (updEngine _ g (.refl _) (Engine.passEnded_carriedSlots _))

theorem switchOff (s : State) (g : Seg) : s.Leaves (s.switchOff g) := by
  have flushed : s.Leaves (s.flushQueue g .segmentOff .off id) := by
    obtain ⟨l, hl⟩ := State.flush_answers (u := s.emptied g) (f := id) g .segmentOff .off (s.engine g).queue ⟨[], rfl⟩
    rw [State.flushQueue_eq, hl]
    exact trans (t := s.emptied g) ⟨fun _ => State.placed_emptied⟩ (answering ..)
  have idled := flushed.trans (updEngine_same _ g (f := fun e => { e with pollDue := false }) (fun _ => rfl) (fun _ => rfl) fun _ => rfl)
  unfold State.switchOff
  dsimp only
  cases (s.engine g).state with
  | idle | fault => exact (idled.trans (endPass ..)).trans (updEngine_same _ g (fun _ => rfl) (fun _ => rfl) fun _ => rfl)
  | transaction | contest => exact idled.trans (updEngine_same _ g (fun _ => rfl) (fun _ => rfl) fun _ => rfl)
  | off => exact idled

end State.Leaves

section
variable {s : State} (h : s.slotsAgree)
include h

/-- A slot that holds no request on its way stands nowhere. -/
theorem State.slotsAgree.unplaced {p : PortId} {i : SlotIx} (queued : ∀ r, s.slot p i ≠ .dispatched r) (lined : ∀ r, s.slot p i ≠ .onLine r) :
    ¬ s.placed (p, i) := by
  obtain ⟨-, -, -, dispatched, onLine⟩ := h
  rintro ⟨g, hx | hx⟩
  · obtain ⟨r, e⟩ := dispatched g _ hx
    exact queued r e
  · obtain ⟨r, e⟩ := onLine g _ hx
    exact lined r e

/-- A port rewritten in slots that stand nowhere. -/
theorem State.slotsAgree.setPort {p : PortId} {x : PortState} (lists : x.listsAgree)
    (others : ∀ j, s.placed (p, j) → x.slots[j] = (s.port p).slots[j]) : (s.setPort p x).slotsAgree := by
  refine h.restrict (fun q => ?_) (fun y hy => ?_) (fun g => by simp [State.queuedSlots]) fun g => by simp
  · rw [State.setPort_port]
    split
    · exact lists
    · exact h.1 q
  · obtain ⟨q, j⟩ := y
    rw [State.slot, State.setPort_port]
    split
    · subst_vars
      exact others j ((State.Leaves.setPort s q x).stood _ hy)
    · rfl

/-- A port rewritten in one slot, which stands nowhere. -/
theorem State.slotsAgree.setSlot {p : PortId} {x : PortState} (lists : x.listsAgree) {i : SlotIx} {c : Slot}
    (slots : x.slots = (s.port p).slots.set i c) (free : ¬ s.placed (p, i)) : (s.setPort p x).slotsAgree := by
  refine h.setPort lists fun j hj => ?_
  have other : i.val ≠ j.val := fun e => free (Fin.ext e ▸ hj)
  rw [slots]
  simp [other]

end

/-- A WAITING request is answered. -/
theorem State.KeepsSlots.answerWaiting {s : State} {p : PortId} {i : SlotIx} {r : Request} (waits : s.slot p i = .waiting r) (a : Answer) :
    s.KeepsSlots (s.finish p i a) := .mk fun h => h.finish (h.unplaced_waiting waits) a

/-! ### Admission -/

theorem State.queueItem_place (s : State) (p : PortId) (i : SlotIx) (g : Seg) (q : LineReq) :
    ((s.queueItem p i g q).port, (s.queueItem p i g q).slot) = (p, i) := by
  unfold State.queueItem
  split <;> rfl

/-- A waiting request enters a queue (R78). -/
theorem State.KeepsSlots.enterQueue {s : State} {p : PortId} {i : SlotIx} {r : Request} (waits : s.slot p i = .waiting r) (g : Seg)
    (q : LineReq) : s.KeepsSlots (s.enterQueue p i g q) := .mk fun h => by
  let u := s.setPort p ((s.port p).dispatchHead i)
  have free : ¬ s.placed (p, i) := h.unplaced_waiting waits
  have left : u.slotsAgree := h.setSlot (h.1 p).dispatchHead rfl free
  have slot : u.slot p i = .dispatched r := by
    have held : (s.port p).slots[i] = .waiting r := waits
    rw [State.slot, State.setPort_port_same, PortState.dispatchHead, held]
    simp [Slot.request?]
  have entered : (u.updEngine g fun e => { e with queue := e.queue ++ [s.queueItem p i g q], lastServed := p }).slotsAgree := by
    refine left.enqueue (g := g) (fun placed => free ((State.Leaves.setPort ..).stood _ placed)) ⟨r, slot⟩ (fun _ => State.updEngine_port ..) ?_
      (fun k hk => ?_) fun k => ?_
    · rw [State.queuedSlots, State.updEngine_engine_same, List.map_append, List.map_singleton, State.queueItem_place]
      rfl
    · rw [State.queuedSlots, State.updEngine_engine_ne _ _ _ _ hk, State.queuedSlots]
    · rw [State.updEngine_engine]
      split
      · subst_vars
        rfl
      · rfl
  have same : s.enterQueue p i g q =
      (u.updEngine g fun e => { e with queue := e.queue ++ [s.queueItem p i g q], lastServed := p }).admissionChange g q := by
    rw [State.enterQueue, State.updPort_eq, State.updEngine_port, State.updEngine_setPort]
  rw [same]
  exact (State.KeepsSlots.directory (.admissionChange ..)).agree entered

theorem State.KeepsSlots.tryEnter {s : State} {p : PortId} {i : SlotIx} {r : Request} (waits : s.slot p i = .waiting r) (g : Seg)
    (q : LineReq) : s.KeepsSlots (s.tryEnter p i g q).1 := by
  unfold State.tryEnter
  split
  · exact .answerWaiting waits _
  · exact .enterQueue waits g q

theorem State.KeepsSlots.arbitrate (s : State) (g : Seg) : s.KeepsSlots (s.arbitrate g) := by
  have enters {t : State} {p : PortId} {i : SlotIx} (waits : ∃ r, t.slot p i = .waiting r) (q : LineReq) :
      t.KeepsSlots (t.tryEnter p i g q).1 := .tryEnter waits.choose_spec g q
  unfold State.arbitrate
  dsimp only
  split
  · rename_i hi _
    exact enters (State.waitingFor_slot hi) _
  · rename_i hi
    exact enters (State.waitingFor_slot hi) _
  · rename_i i q j r hi hj
    refine .ite (fun _ => enters (State.waitingFor_slot hi) q) fun refused => (enters (State.waitingFor_slot hi) q).trans (enters ?_ r)
    unfold State.tryEnter at refused ⊢
    split at refused
    · rw [State.finish_slot_ne _ _ _ _ _ _ (by simp)]
      exact State.waitingFor_slot hj
    · simp at refused
  · exact .refl s

theorem State.KeepsSlots.admitDispatched (s : State) (p : PortId) (g : Seg) : s.KeepsSlots (s.admitDispatched p g) :=
  .ite (fun _ => (State.KeepsSlots.arbitrate s g).trans (.arbitrate ..)) fun _ => .arbitrate ..

/-! ### Dispatch -/

theorem State.KeepsSlots.dispatch {s : State} (p : PortId) (k : ReqKind) {f : SlotIx → Request → State}
    (hf : ∀ i r, s.slot p i = .waiting r → s.KeepsSlots (f i r)) : s.KeepsSlots (s.dispatch p k f) := by
  unfold State.dispatch
  split
  · rename_i i r hh
    refine .ite (fun _ => hf i r ?_) fun _ => .refl s
    unfold State.head? at hh
    split at hh
    · cases hh
    · split at hh <;> simp_all
  · exact .refl s

theorem State.KeepsSlots.dispatchLine (s : State) (p : PortId) (k : ReqKind) : s.KeepsSlots (s.dispatchLine p k) := by
  refine .dispatch p k fun i r waits => ?_
  split
  · exact .answerWaiting waits _
  · split
    · exact .answerWaiting waits _
    · rename_i g _
      have awaits : s.KeepsSlots (s.updPort p fun x => { x with waitsFor := some g }) := .setPort rfl rfl rfl
      exact .ite (fun _ => awaits.trans (.admitDispatched ..)) fun _ => awaits

/-- A request served in its dispatch, where nothing comes to stand in a place (R170). -/
theorem State.KeepsSlots.serve {s : State} (p : PortId) (k : ReqKind) {f : State → PortId → List Byte → State × Answer}
    (keeps : ∀ body, s.KeepsSlots (f s p body).1) (leaves : ∀ body, s.Leaves (f s p body).1) : s.KeepsSlots (s.serve p k f) :=
  .dispatch p k fun _ r waits => .mk fun h =>
    ((keeps r.body).agree h).finish (fun placed => h.unplaced_waiting waits ((leaves r.body).stood _ placed)) _

theorem State.KeepsSlots.serveDirectory {s : State} (p : PortId) (k : ReqKind) {f : State → PortId → List Byte → State × Answer}
    (d : ∀ body, s.DirectoryOnly (f s p body).1) : s.KeepsSlots (s.serve p k f) :=
  .serve p k (fun body => .directory (d body)) fun body => .directory (d body)

end Sys2Proof.Machine
end

section
/-! PROOFS. The pick keeps slots and lists in agreement (R80, R83, R122, R169). -/

namespace Sys2Proof.Machine

/-! ### Work that begins -/

/-- The slot of the request that an engine carries, apart from its pass. -/
def Engine.ownSlots (e : Engine) : List (PortId × SlotIx) := ({ e with pass := noPass } : Engine).carriedSlots

theorem Engine.carriedSlots_split (e : Engine) : e.carriedSlots = e.pass.attached ++ e.ownSlots := rfl

theorem Engine.ownSlots_carriedSlots (e : Engine) : e.ownSlots.Sublist e.carriedSlots := by
  rw [e.carriedSlots_split]
  exact List.sublist_append_right ..

theorem State.KeepsSlots.record (s : State) (g : Seg) (took : Bool) : s.KeepsSlots (s.record g took) :=
  .updEngine_same s g (fun _ => rfl) (fun _ => rfl) fun _ => rfl

/-- Work that no port asked for begins. -/
theorem State.KeepsSlots.beginOwn (s : State) (g : Seg) (st : EngineState) (w : Work) : s.KeepsSlots (s.begin g st w none) := by
  refine .updEngine s g (.refl _) ?_
  unfold Engine.carriedSlots
  exact (List.append_nil _).symm ▸ List.sublist_append_left ..

theorem State.KeepsSlots.beginPoll (s : State) (g : Seg) (h : Handle) : s.KeepsSlots (s.beginPoll g h) :=
  (State.KeepsSlots.updEngine_same s g (f := fun x => { x with cursor := h + 1 }) (fun _ => rfl) (fun _ => rfl) fun _ => rfl).trans
    (.beginOwn ..)

/-- A pass starts of its own (R120). -/
theorem State.KeepsSlots.startPass (s : State) (g : Seg) : s.KeepsSlots (s.startPass g []) :=
  .updEngine s g (f := fun e => { e with pass := { noPass with active := true, attached := [] } }) (.refl _)
    (s.engine g).ownSlots_carriedSlots

theorem State.KeepsSlots.pickContest (s : State) (g : Seg) : s.KeepsSlots (s.pickContest g) := by
  have marked : s.KeepsSlots ((s.record g false).updEngine g fun e => { e with discoveryDue := false }) :=
    (State.KeepsSlots.record ..).trans (.updEngine_same _ g (fun _ => rfl) (fun _ => rfl) fun _ => rfl)
  unfold State.pickContest
  exact marked.trans (.ite (fun _ => .beginOwn ..) fun _ => .ite (fun _ => (State.KeepsSlots.startPass ..).trans (.beginOwn ..))
    fun _ => (State.KeepsSlots.startPass ..).trans (.beginOwn ..))

/-! ### The queue head -/

/-- Slots and lists agree, and slot `x`, which stands nowhere, holds a request on the line. -/
structure State.TakenUp (s : State) (x : PortId × SlotIx) : Prop where
  agree : s.slotsAgree
  free : ¬ s.placed x
  onLine : ∃ r, s.slot x.1 x.2 = .onLine r

namespace State.TakenUp

/-- The head of a queue, taken from it (R83). -/
theorem takeHead {s : State} (h : s.slotsAgree) {g : Seg} {x : QueueItem} {rest : List QueueItem} (head : (s.engine g).queue = x :: rest) :
    (s.takeHead g x).TakenUp (x.port, x.slot) := by
  let u := s.updEngine g fun e => { e with queue := e.queue.tail }
  have listed : (x.port, x.slot) ∈ s.queuedSlots g := by
    rw [State.queuedSlots, head]
    exact List.mem_cons_self ..
  obtain ⟨distinct, dispatched⟩ := h.queued g
  obtain ⟨r, held⟩ := dispatched _ listed
  have left : u.slotsAgree := (State.KeepsSlots.updEngine s g (List.tail_sublist _) (.refl _)).agree h
  have free : ¬ u.placed (x.port, x.slot) := by
    refine h.left (List.tail_sublist _) (.inl ⟨listed, ?_⟩) ((h.alone.1 listed).2 g)
    rw [State.queuedSlots, head, List.map_cons] at distinct
    dsimp only
    rw [head]
    exact (List.nodup_cons.1 distinct).1
  have held' : (u.port x.port).slots[x.slot] = .dispatched r := held
  have taken : s.takeHead g x = u.setPort x.port ((u.port x.port).goOnLine x.slot) := State.updPort_eq ..
  rw [taken]
  refine ⟨left.setSlot ((left.1 x.port).goOnLine held') rfl free, fun placed => free ((State.Leaves.setPort ..).stood _ placed), r, ?_⟩
  rw [State.slot, State.setPort_port_same, PortState.goOnLine, held']
  simp [Slot.request?]

variable {s : State} {x : PortId × SlotIx} (h : s.TakenUp x)
include h

theorem updEngine (g : Seg) {f : Engine → Engine} (queue : (f (s.engine g)).queue.Sublist (s.engine g).queue)
    (carried : (f (s.engine g)).carriedSlots.Sublist (s.engine g).carriedSlots) : (s.updEngine g f).TakenUp x :=
  ⟨(State.KeepsSlots.updEngine s g queue carried).agree h.agree, fun placed => h.free (State.placed_updEngine queue carried placed), by
    rw [State.updEngine_slot]
    exact h.onLine⟩

theorem record (g : Seg) (took : Bool) : (s.record g took).TakenUp x := h.updEngine g (.refl _) (.refl _)

theorem finish (a : Answer) : (s.finish x.1 x.2 a).slotsAgree := h.agree.finish h.free a

/-- Its engine carries or attaches it. -/
theorem carry {g : Seg} {f : Engine → Engine} (queue : (f (s.engine g)).queue = (s.engine g).queue)
    (distinct : (f (s.engine g)).carriedSlots.Nodup)
    (carried : ∀ y ∈ (f (s.engine g)).carriedSlots, y = x ∨ y ∈ (s.engine g).carriedSlots) : (s.updEngine g f).slotsAgree := by
  refine h.agree.carry h.free h.onLine (fun _ => State.updEngine_port ..) (fun k => ?_) (g := g) ?_ fun k hk => ?_
  · rw [State.queuedSlots, State.updEngine_engine]
    split
    · subst_vars
      rw [queue]
      rfl
    · rfl
  · rw [State.updEngine_engine_same]
    exact ⟨distinct, carried⟩
  · rw [State.updEngine_engine_ne _ _ _ _ hk]

theorem not_carried (g : Seg) : x ∉ (s.engine g).carriedSlots := fun hx => h.free ⟨g, .inr hx⟩

theorem begin (g : Seg) (st : EngineState) (w : Work) :
    (s.begin g st w (some { port := x.1, slot := some x.2 })).slotsAgree := by
  have attached := (s.engine g).attached_carriedSlots
  refine h.carry rfl ?_ fun y hy => ?_
  · exact List.nodup_append'.2 ⟨(h.agree.carried_nodup g).sublist attached, List.nodup_singleton _, fun y hy hx =>
      h.not_carried g (attached.subset ((List.mem_singleton.1 hx : y = x) ▸ hy))⟩
  · exact (List.mem_append.1 hy).symm.imp List.mem_singleton.1 fun hy => attached.subset hy

theorem startPass (g : Seg) : (s.startPass g [x]).slotsAgree := by
  have own := (s.engine g).ownSlots_carriedSlots
  refine h.carry (f := fun e => { e with pass := { noPass with active := true, attached := [x] } }) rfl ?_ fun y hy => ?_
  · exact List.nodup_cons.2 ⟨fun hx => h.not_carried g (own.subset hx), (h.agree.carried_nodup g).sublist own⟩
  · rw [Engine.carriedSlots_split] at hy
    exact (List.mem_cons.1 hy).imp id fun hy => own.subset hy

theorem attach (g : Seg) : (s.updPass g fun c => { c with attached := c.attached ++ [x] }).slotsAgree := by
  have all : ((s.engine g).pass.attached ++ [x] ++ (s.engine g).ownSlots).Perm (x :: (s.engine g).carriedSlots) := by
    rw [List.append_assoc]
    exact List.perm_middle
  refine h.carry (f := fun e => { e with pass := { e.pass with attached := e.pass.attached ++ [x] } }) rfl ?_ fun y hy => ?_
  · exact all.nodup_iff.2 (List.nodup_cons.2 ⟨h.not_carried g, h.agree.carried_nodup g⟩)
  · exact List.mem_cons.1 (all.mem_iff.1 hy)

end State.TakenUp

theorem State.KeepsSlots.pickDiscover {s : State} {g : Seg} {x : QueueItem} {rest : List QueueItem}
    (head : (s.engine g).queue = x :: rest) : s.KeepsSlots (s.pickDiscover g x) := .mk fun h => by
  have taken := (State.TakenUp.takeHead h head).record g true
  unfold State.pickDiscover
  dsimp only
  split
  · split
    · exact taken.attach g
    · exact (State.KeepsSlots.ite (fun _ => .beginOwn ..) fun _ => .refl _).agree (taken.startPass g)
  · exact taken.finish _

theorem State.KeepsSlots.pickQueue {s : State} {g : Seg} {x : QueueItem} {rest : List QueueItem}
    (head : (s.engine g).queue = x :: rest) : s.KeepsSlots (s.pickQueue g x) := .mk fun h => by
  have taken := State.TakenUp.takeHead h head
  unfold State.pickQueue
  split
  · exact (State.KeepsSlots.pickDiscover head).agree h
  · exact (taken.record g true).begin ..
  · dsimp only
    split
    · exact taken.finish _
    · exact (taken.record g true).begin ..
  · exact h

/-! ### The pick -/

theorem State.KeepsSlots.pickRest (s : State) (g : Seg) : s.KeepsSlots (s.pickRest g) := by
  unfold State.pickRest
  refine .ite (fun _ => .pickContest ..) fun _ => ?_
  split
  · rename_i head _
    exact .pickQueue head
  · rename_i head _
    exact .pickQueue head
  all_goals exact .record ..

theorem State.KeepsSlots.pollTurn (s : State) (g : Seg) : s.KeepsSlots (s.pollTurn g).1 :=
  (State.KeepsSlots.updEngine_same s g (f := fun e => { e with pollDue := false }) (fun _ => rfl) (fun _ => rfl) fun _ => rfl).trans
    (.directory (.pollScan ..))

theorem State.KeepsSlots.pickPoll (s : State) (g : Seg) : s.KeepsSlots (s.pickPoll g) := by
  have turn := State.KeepsSlots.pollTurn s g
  unfold State.pickPoll
  refine .ite (fun _ => ?_) fun _ => .pickRest ..
  split
  · rename_i polled
    rw [polled] at turn
    exact turn.trans ((State.KeepsSlots.record ..).trans (.beginPoll ..))
  · rename_i polled
    rw [polled] at turn
    exact turn.trans (.pickRest ..)

theorem State.KeepsSlots.pickWork (s : State) (g : Seg) : s.KeepsSlots (s.pickWork g) := by
  have readied : s.KeepsSlots (s.readied g) := by
    unfold State.readied
    rw [show s.passOver g .ok 3 = s.endPass g .quiet from (State.endPass_eq s g .quiet).symm]
    exact .ite (fun _ => .refl s) fun _ => .endPass ..
  rw [State.pickWork_eq]
  refine readied.trans ?_
  split
  · exact .ite (fun _ => .pickPoll ..) fun _ => (State.KeepsSlots.record ..).trans (.beginOwn ..)
  · exact .pickPoll ..

end Sys2Proof.Machine
end

section
/-! PROOFS. Requests served at once touch no place; the settings bring none to one (R74, R170). -/

namespace Sys2Proof.Machine

/-! ### Requests served at once that touch no place -/

namespace State.DirectoryOnly

theorem setPort {s : State} {p : PortId} {x : PortState} (slots : x.slots = (s.port p).slots) (waiting : x.waiting = (s.port p).waiting)
    (completed : x.completed = (s.port p).completed) (waitsFor : x.waitsFor = (s.port p).waitsFor) : s.DirectoryOnly (s.setPort p x) := by
  have port (q : PortId) : (s.setPort p x).port q = if q = p then x else s.port q := State.setPort_port ..
  refine ⟨fun q => ?_, fun q => ?_, fun q => ?_, fun q => ?_, fun k => ⟨_, by rw [State.setPort_engine]⟩⟩ <;> rw [port] <;> split <;>
    subst_vars
  · exact slots
  · rfl
  · exact waiting
  · rfl
  · exact completed
  · rfl
  · exact waitsFor
  · rfl

/-- The run state and the seeding window are no part of what a place depends on. -/
theorem runs (s : State) (r : RunState) (w : Bool) : s.DirectoryOnly { s with runState := r, seeding := w } :=
  ⟨fun p => by cases p <;> rfl, fun p => by cases p <;> rfl, fun p => by cases p <;> rfl, fun p => by cases p <;> rfl, fun _ => ⟨_, rfl⟩⟩

theorem wake (s : State) : s.DirectoryOnly s.wake := by
  unfold State.wake
  split
  · exact runs s .run s.seeding
  · exact runs s .run s.seeding
  · exact refl s
  · exact refl s

variable (s : State) (p : PortId) (body : List Byte)

theorem lookup {β : Type} (parse : List Byte → Option β) (f : State → PortId → β → Answer) :
    s.DirectoryOnly (lookup parse f s p body).1 := by
  unfold Machine.lookup
  split <;> exact refl s

theorem serveSetLabel : s.DirectoryOnly (serveSetLabel s p body).1 := by
  unfold Machine.serveSetLabel
  split
  · exact refl s
  · split
    · exact refl s
    · exact change ..

theorem serveSetStride : s.DirectoryOnly (serveSetStride s p body).1 := by
  unfold Machine.serveSetStride
  split
  · exact refl s
  · split
    · exact refl s
    · exact change ..

theorem serveClaim (c : Option PortId) : s.DirectoryOnly (serveClaim c s p body).1 := by
  unfold Machine.serveClaim
  split
  · exact refl s
  · split
    · exact refl s
    · split
      · exact refl s
      · exact setEntry ..

theorem serveWatch (on : Bool) : s.DirectoryOnly (serveWatch on s p body).1 := by
  unfold Machine.serveWatch
  split
  · exact refl s
  · split
    · exact refl s
    · exact (setEntry ..).trans (ite (refl _) (setPort rfl rfl rfl rfl))

theorem serveSeed : s.DirectoryOnly (serveSeed s p body).1 := by
  unfold Machine.serveSeed
  split
  · exact refl s
  · split
    · exact refl s
    · exact (setMap ..).trans (change ..)

theorem serveSeedEnd : s.DirectoryOnly (serveSeedEnd s p body).1 := by
  unfold Machine.serveSeedEnd
  split
  · exact refl s
  · split
    · exact runs s s.runState false
    · exact refl s

theorem serveQuiet : s.DirectoryOnly (serveQuiet s p body).1 := by
  unfold Machine.serveQuiet
  split
  · exact refl s
  · split
    · exact runs s .quieting s.seeding
    · exact refl s

theorem serveClearNotices : s.DirectoryOnly (serveClearNotices s p body).1 := by
  unfold Machine.serveClearNotices
  split
  · exact refl s
  · exact setPort rfl rfl rfl rfl

theorem serveSetNoticeMask : s.DirectoryOnly (serveSetNoticeMask s p body).1 := by
  unfold Machine.serveSetNoticeMask
  split
  · exact refl s
  · exact setPort rfl rfl rfl rfl

theorem serveGetChanges : s.DirectoryOnly (serveGetChanges s p body).1 := by
  unfold Machine.serveGetChanges
  split
  · exact refl s
  · exact setPort rfl rfl rfl rfl

theorem serveGetSegment : s.DirectoryOnly (serveGetSegment s p body).1 := by
  unfold Machine.serveGetSegment
  split <;> exact refl s

end State.DirectoryOnly

/-! ### Settings -/

theorem State.DirectoryOnly.lowerThreshold (s : State) (g : Seg) (T : Nat) : s.DirectoryOnly (s.lowerThreshold g T) := by
  have one (u : State) (h : Handle) : u.DirectoryOnly (u.lowerEntry g T h) := ite (change ..) (refl u)
  have all (l : List Handle) : ∀ u : State, u.DirectoryOnly (l.foldl (State.lowerEntry g T) u) := by
    induction l with
    | nil => exact refl
    | cons h l ih => exact fun u => (one u h).trans (ih _)
  unfold State.lowerThreshold
  exact ite ((all allHandles s).trans (raise ..)) (all allHandles s)

/-- The settings written, with the lowering of T, bring no request to a place. -/
theorem State.KeepsSlots.settingsWritten (s : State) (g : Seg) (x : Settings) : s.KeepsSlots (s.settingsWritten g x) := by
  have written : s.KeepsSlots (s.updEngine g (·.write x)) := .updEngine_same s g (fun _ => rfl) (fun _ => rfl) fun _ => rfl
  unfold State.settingsWritten
  exact .ite (fun _ => written.trans (.directory (.lowerThreshold ..))) fun _ => written

theorem State.Leaves.settingsWritten (s : State) (g : Seg) (x : Settings) : s.Leaves (s.settingsWritten g x) := by
  have written : s.Leaves (s.updEngine g (·.write x)) := .updEngine_same s g (fun _ => rfl) (fun _ => rfl) fun _ => rfl
  unfold State.settingsWritten
  split
  · exact written.trans (.directory (.lowerThreshold ..))
  · exact written

theorem State.serveSetSegment_places (s : State) (p : PortId) (body : List Byte) :
    s.KeepsSlots (serveSetSegment s p body).1 ∧ s.Leaves (serveSetSegment s p body).1 := by
  unfold Machine.serveSetSegment
  split
  · exact ⟨.refl s, .directory (.refl s)⟩
  · rename_i g x _
    have written := State.KeepsSlots.settingsWritten s g x
    have left := State.Leaves.settingsWritten s g x
    split
    · exact ⟨.refl s, .directory (.refl s)⟩
    · dsimp only
      rw [State.applySettings_eq]
      split
      · split
        · exact ⟨written.trans (.updEngine_same _ g (fun _ => rfl) (fun _ => rfl) fun _ => rfl),
            left.trans (.updEngine_same _ g (fun _ => rfl) (fun _ => rfl) fun _ => rfl)⟩
        · exact ⟨written, left⟩
      · split
        · exact ⟨written.trans (.switchOff ..), left.trans (.switchOff ..)⟩
        · exact ⟨written, left⟩

end Sys2Proof.Machine
end

section
/-! PROOFS. Exchanges, restarts and the timer keep slots and lists in agreement (R163, R169, R175, R192, R197). -/

namespace Sys2Proof.Machine

/-! ### Exchanges -/

theorem State.KeepsSlots.deliver (s : State) (p : PortId) (x : Exchange) (n : Nat) : s.KeepsSlots (s.deliver p x n) := .mk fun h => by
  have removal : (s.updPort p (·.afterDelivery x n)).slotsAgree := by
    rw [State.updPort_eq]
    unfold PortState.afterDelivery
    split
    · rename_i i r _ _
      split
      · rename_i delivered
        obtain ⟨q, r', done⟩ : ∃ q r', (s.port p).slots[i] = .completed q r' := by
          have holds := delivered.2
          unfold Slot.holds at holds
          split at holds
          · exact ⟨_, _, ‹_›⟩
          all_goals cases holds
        have slot : s.slot p i = .completed q r' := done
        exact h.setSlot ((h.1 p).removeResponse done) rfl (h.unplaced (by simp [slot]) (by simp [slot]))
      · exact (State.KeepsSlots.setPort rfl rfl rfl).agree h
    · exact (State.KeepsSlots.setPort rfl rfl rfl).agree h
  unfold State.deliver
  split
  · exact h
  · exact removal

theorem Engine.dropPort_carriedSlots (e : Engine) (p : PortId) : (e.dropPort p).carriedSlots = e.carriedSlots.filter (·.1 != p) := by
  have pass : (e.dropPort p).pass.attached = e.pass.attached.filter (·.1 != p) := rfl
  have activity : (e.dropPort p).activity = e.activity.map (·.orphan p) := rfl
  unfold Engine.carriedSlots
  rw [pass, activity, List.filter_append]
  refine congrArg _ ?_
  obtain _ | ⟨w, _ | ⟨q, _ | i⟩, n⟩ := e.activity
  · rfl
  · rfl
  · by_cases hq : q = p <;> simp [Activity.orphan, hq]
  · by_cases hq : q = p <;> simp [Activity.orphan, hq]

theorem State.KeepsSlots.portReset (s : State) (p : PortId) : s.KeepsSlots (s.portReset p) := .mk fun h => by
  have d : (s.portDropped p).DirectoryOnly ((s.portDropped p).returnItems (allSegments.flatMap (s.queuedOf p))) := .returnItems ..
  have engine (g : Seg) : ((s.portReset p).engine g).queue = (s.engine g).queue.filter (fun x => x.port != p) ∧
      ((s.portReset p).engine g).carriedSlots = (s.engine g).carriedSlots.filter (·.1 != p) := by
    obtain ⟨l, hl⟩ := d.engine g
    rw [State.portDropped_engine] at hl
    have same : (s.portReset p).engine g = { (s.engine g).dropPort p with resolution := l } := by
      rw [← hl, State.portReset, State.updPort_eq, State.setPort_engine]
      rfl
    rw [same, ← Engine.dropPort_carriedSlots]
    exact ⟨rfl, rfl⟩
  have port (q : PortId) (other : q ≠ p) : ((s.portReset p).port q).slots = (s.port q).slots ∧
      ((s.portReset p).port q).waiting = (s.port q).waiting ∧ ((s.portReset p).port q).completed = (s.port q).completed := by
    have same : (s.portReset p).port q = ((s.portDropped p).returnItems (allSegments.flatMap (s.queuedOf p))).port q := by
      rw [State.portReset, State.updPort_eq, State.setPort_port, if_neg other]
      rfl
    rw [same, d.slots, d.waiting, d.completed, State.portDropped_port]
    exact ⟨rfl, rfl, rfl⟩
  have cleared : ((s.portReset p).port p).listsAgree := by
    rw [State.portReset, State.updPort_eq, State.setPort_port_same]
    exact PortState.listsAgree_empty rfl rfl rfl
  have apart (x : PortId × SlotIx) (hx : (s.portReset p).placed x) : x.1 ≠ p := by
    obtain ⟨g, hx | hx⟩ := hx
    · rw [State.queuedSlots, (engine g).1] at hx
      obtain ⟨y, hy, rfl⟩ := List.mem_map.1 hx
      simpa using (List.mem_filter.1 hy).2
    · rw [(engine g).2] at hx
      simpa using (List.mem_filter.1 hx).2
  refine h.restrict (fun q => ?_) (fun x hx => ?_) (fun g => ?_) fun g => ?_
  · by_cases hq : q = p
    · exact hq ▸ cleared
    · obtain ⟨slots, waiting, completed⟩ := port q hq
      exact (h.1 q).congr slots waiting completed
  · obtain ⟨slots, -, -⟩ := port x.1 (apart x hx)
    unfold State.slot
    rw [slots]
  · rw [State.queuedSlots, (engine g).1]
    exact List.filter_sublist.map _
  · rw [(engine g).2]
    exact List.filter_sublist

theorem State.KeepsSlots.takeFrame (s : State) (p : PortId) (f : TakenFrame) : s.KeepsSlots (s.takeFrame p f).1 := by
  unfold State.takeFrame
  split
  · exact .refl s
  · split
    · exact .portReset ..
    · have woken : s.KeepsSlots (if f.kind = .wake then s.wake else s) := .ite (fun _ => .directory (.wake s)) fun _ => .refl s
      dsimp only
      split
      · exact woken
      · rename_i i first
        refine woken.trans (.mk fun h => ?_)
        generalize (if f.kind = .wake then s.wake else s) = t at h first ⊢
        have free : (t.port p).slots[i] = .free := by
          have := List.find?_some first
          simpa using this
        have slot : t.slot p i = .free := free
        rw [State.updPort_eq]
        exact h.setSlot ((h.1 p).take free) rfl (h.unplaced (by simp [slot]) (by simp [slot]))

theorem State.KeepsSlots.endExchange (s : State) (p : PortId) (x : Exchange) (sent : List Bool) :
    s.KeepsSlots (s.endExchange p x sent) := by
  have judged (t : State) : t.KeepsSlots (t.judge p sent).1 := by
    unfold State.judge
    split
    · exact .refl t
    · exact .refl t
    · exact .takeFrame ..
  exact ((State.KeepsSlots.deliver ..).trans (judged _)).trans (.setPort rfl rfl rfl)

/-! ### Restarts -/

/-- Nothing stands anywhere, and the ports agree with their lists. -/
theorem State.slotsAgree_of_bare {t : State} (ports : ∀ p, (t.port p).listsAgree) (queues : ∀ g, (t.engine g).queue = [])
    (carried : ∀ g, (t.engine g).carriedSlots = []) : t.slotsAgree := by
  have queued (g : Seg) : t.queuedSlots g = [] := by rw [State.queuedSlots, queues]; rfl
  refine ⟨ports, ?_, ?_, fun g x hx => ?_, fun g x hx => ?_⟩
  · refine nodup_segments.2 ⟨fun g => ?_, fun g k _ x hx => ?_⟩
    · rw [queued]
      exact List.nodup_nil
    · rw [queued] at hx
      cases hx
  · refine nodup_segments.2 ⟨fun g => ?_, fun g k _ x hx => ?_⟩
    · rw [carried]
      exact List.nodup_nil
    · rw [carried] at hx
      cases hx
  · rw [queued] at hx
    cases hx
  · rw [carried] at hx
    cases hx

theorem State.KeepsSlots.clearing (s : State) : s.KeepsSlots s.clearing := .mk fun _ =>
  State.slotsAgree_of_bare (fun p => by rw [State.clearing_port]; exact PortState.listsAgree_empty rfl rfl rfl)
    (fun g => by rw [State.clearing_engine]; rfl) fun g => by rw [State.clearing_engine]; rfl

theorem State.KeepsSlots.retainRestart (s : State) : s.KeepsSlots s.retainRestart := by
  have based : s.KeepsSlots s.retainedBase := .mk fun _ =>
    State.slotsAgree_of_bare (fun p => by rw [State.retainedBase_port]; exact PortState.listsAgree_empty rfl rfl rfl)
      (fun g => by rw [State.retainedBase_engine]; rfl) fun g => by rw [State.retainedBase_engine]; rfl
  have entries (l : List Handle) : ∀ u : State, u.DirectoryOnly (l.foldl State.retainEntry u) := by
    induction l with
    | nil => exact .refl
    | cons h l ih => exact fun u => (State.DirectoryOnly.change u h _).trans (ih _)
  rw [State.retainRestart_eq]
  exact based.trans (.directory ((entries allHandles _).trans (.raise ..)))

/-- The ports as they are, and engines that keep their queues and at most what they carry. -/
theorem State.KeepsSlots.engines {s t : State} (port : ∀ p, t.port p = s.port p) (queue : ∀ g, (t.engine g).queue = (s.engine g).queue)
    (carried : ∀ g, (t.engine g).carriedSlots.Sublist (s.engine g).carriedSlots) : s.KeepsSlots t := .mk fun h => by
  refine h.restrict (fun p => port p ▸ h.1 p) (fun x _ => ?_) (fun g => ?_) carried
  · rw [State.slot, port, State.slot]
  · rw [State.queuedSlots, queue]
    exact .refl _

theorem State.KeepsSlots.takeReset (s : State) : s.KeepsSlots s.takeReset :=
  .engines (fun p => by cases p <;> rfl) (fun g => by rw [State.takeReset_engine]; rfl) fun g => by
    rw [State.takeReset_engine, Engine.carriedSlots_idle _ rfl]
    exact (s.engine g).attached_carriedSlots

theorem State.KeepsSlots.resetPulse (s : State) (width : Nat) : s.KeepsSlots (s.resetPulse width) := by
  have drawn : s.KeepsSlots { s with freeCount := s.freeCount + 1 } :=
    .engines (fun p => by cases p <;> rfl) (fun _ => rfl) fun _ => .refl _
  unfold State.resetPulse
  exact .ite (fun _ => .refl s) fun _ => .ite (fun _ => .takeReset s) fun _ =>
    .ite (fun _ => drawn.trans (.takeReset _)) fun _ => drawn

theorem State.KeepsSlots.releaseReset (s : State) : s.KeepsSlots s.releaseReset := by
  unfold State.releaseReset
  split
  · exact .directory (.runs s (.starting (.settling true)) s.seeding)
  all_goals exact .refl s

theorem State.KeepsSlots.settled (s : State) (cycles : Nat) : s.KeepsSlots (s.settled cycles) := by
  have started : s.KeepsSlots { s with prescaler := .start } :=
    .engines (fun p => by cases p <;> rfl) (fun _ => rfl) fun _ => .refl _
  exact .ite (fun _ => started.trans (.clearing _)) fun _ => .refl s

theorem State.KeepsSlots.readEnds (s : State) (line : List Bool) : s.KeepsSlots (s.readEnds line) := by
  unfold State.readEnds
  split
  · rename_i image _
    by_cases loading : s.runState = .starting .loading
    · have based : s.KeepsSlots (s.runBase (setupOf image)) :=
        .engines (fun p => by cases p <;> rfl) (fun g => by rw [State.runBase_engine]; rfl) fun g => by
          rw [State.runBase_engine]
          exact .refl _
      have restarted := based.trans (.directory (.raise _ .restarted))
      rw [State.enterRun_eq s image loading]
      exact .ite (fun _ => restarted) fun _ => restarted.trans (.directory (.raise ..))
    · rw [State.enterRun, if_neg loading]
      exact .refl s
  · exact .refl s

theorem State.KeepsSlots.drain (s : State) : s.KeepsSlots s.drain :=
  .ite (fun _ => .directory (.runs s .quiet s.seeding)) fun _ => .refl s

theorem State.KeepsSlots.dispatchRestart (s : State) (p : PortId) (k : RestartKind) {f : State → State} (hf : s.KeepsSlots (f s)) :
    s.KeepsSlots (s.dispatchRestart p k f) := by
  refine .dispatch p _ fun i r waits => ?_
  split
  · exact .answerWaiting waits _
  · exact .ite (fun _ => hf) fun _ => .refl s

theorem State.KeepsSlots.dispatchWake (s : State) (p : PortId) : s.KeepsSlots (s.dispatchWake p) := by
  refine .dispatch p _ fun i r waits => ?_
  split
  · exact .answerWaiting waits _
  · have waits' : s.wake.slot p i = .waiting r := by rw [State.slot, State.wake_port]; exact waits
    exact (State.KeepsSlots.directory (.wake s)).trans (.answerWaiting waits' _)

/-! ### The poll timer and the reference clock -/

theorem State.KeepsSlots.timerExpires (s : State) (g : Seg) (count : PollCount) : s.KeepsSlots (s.timerExpires g count) := by
  have recovered (t : State) : t.KeepsSlots (t.recover g) := by
    have back : t.KeepsSlots (t.updEngine g fun e => { e with state := if e.settings.on then .idle else .off }) :=
      .updEngine_same t g (fun _ => rfl) (fun _ => rfl) fun _ => rfl
    unfold State.recover
    exact .ite (fun _ => back.trans (.directory (.raise _ .segRecovered))) fun _ => .refl t
  have counted (t : State) : t.KeepsSlots (t.updEngine g Engine.countExpiry) :=
    .updEngine_same t g (fun e => by rw [e.countExpiry_eq]) (fun e => by rw [e.countExpiry_eq]) fun e => by rw [e.countExpiry_eq]
  have expired (t : State) : t.KeepsSlots (t.expire g) := by
    have due : t.KeepsSlots (t.updEngine g fun e => { e with pollDue := true }) :=
      .updEngine_same t g (fun _ => rfl) (fun _ => rfl) fun _ => rfl
    unfold State.expire
    split
    case h_1 | h_2 | h_3 => exact .ite (fun _ => .refl t) fun _ => .ite (fun _ => due.trans (counted _)) fun _ => due
    all_goals exact .refl t
  unfold State.timerExpires
  exact .ite (fun _ => (((State.KeepsSlots.updLine ..).trans (recovered _)).trans (expired _)).trans
    (.updEngine_same _ g (fun _ => rfl) (fun _ => rfl) fun _ => rfl)) fun _ => .refl s

theorem State.KeepsSlots.cycle (s : State) : s.KeepsSlots s.cycle :=
  .engines (fun p => by cases p <;> simp [State.port]) (fun g => by rw [State.cycle_engine]) fun g => by
    rw [State.cycle_engine]
    exact .refl _

end Sys2Proof.Machine
end

section
/-! PROOFS. Every command keeps slots and lists in agreement (R168, R169, R172). -/

namespace Sys2Proof.Machine

/-! ### Every command and slots -/

/-- Every command keeps slots and lists in agreement. -/
theorem exec_keepsSlots {c : Instr} {s t : State} (h : exec c s = .next t) : s.KeepsSlots t := by
  have served {u : State} (k : s.KeepsSlots u) (next : (Host.Outcome.next u : Host.Outcome State Fault Refusal) = .next t) :
      s.KeepsSlots t := by
    cases next
    exact k
  cases c with
  | exchangeStart p =>
    refine served ?_ h
    split
    · exact .setPort rfl rfl rfl
    · exact .refl s
  | exchangeEnd p sent =>
    refine served ?_ h
    split
    · exact .endExchange ..
    · exact .refl s
  | describe p | getNotices p | findId p | findAddr p | list p | readEntry p =>
    exact served (.serveDirectory p _ fun body => .lookup s p body _ _) h
  | clearNotices p => exact served (.serveDirectory p _ (.serveClearNotices s p)) h
  | setNoticeMask p => exact served (.serveDirectory p _ (.serveSetNoticeMask s p)) h
  | getChanges p => exact served (.serveDirectory p _ (.serveGetChanges s p)) h
  | restartFull p => exact served (.dispatchRestart _ _ _ (.clearing s)) h
  | restartRetain p => exact served (.dispatchRestart _ _ _ (.retainRestart s)) h
  | quiet p => exact served (.serveDirectory p _ (.serveQuiet s p)) h
  | wake p => exact served (.dispatchWake s p) h
  | seed p => exact served (.serveDirectory p _ (.serveSeed s p)) h
  | seedEnd p => exact served (.serveDirectory p _ (.serveSeedEnd s p)) h
  | setLabel p => exact served (.serveDirectory p _ (.serveSetLabel s p)) h
  | setStride p => exact served (.serveDirectory p _ (.serveSetStride s p)) h
  | claim p | unclaim p => exact served (.serveDirectory p _ fun body => .serveClaim s p body _) h
  | watch p | unwatch p => exact served (.serveDirectory p _ fun body => .serveWatch s p body _) h
  | setSegment p =>
    exact served (.serve p _ (fun body => (s.serveSetSegment_places p body).1) fun body => (s.serveSetSegment_places p body).2) h
  | getSegment p => exact served (.serveDirectory p _ (.serveGetSegment s p)) h
  | nodeRead p | nodeWrite p | broadcast p | discover p | move p | retire p => exact served (.dispatchLine ..) h
  | intakeAdmission g => exact served (.ite (fun _ => .arbitrate ..) fun _ => .refl s) h
  | pick g => exact served (.ite (fun _ => .pickWork ..) fun _ => .refl s) h
  | idleGapElapsed => exact served (.idleGap ..) h
  | stuck => exact served (.stuckLine ..) h
  | contention => exact served (.contend ..) h
  | breakRelease => exact served (.releaseBreak ..) h
  | acknowledgeSlot => exact served (.acknowledge ..) h
  | commandFrameSent => exact served (.frameSent ..) h
  | replyWindowTimeout => exact served (.replyTimeout ..) h
  | characterGapTimeout => exact served (.gapTimeout ..) h
  | replyCharacter => exact served (.replyChar ..) h
  | collision => exact served (.breakSeen ..) h
  | contestSlotsEnd => exact served (.slotsEnd ..) h
  | classCharacter => exact served (.classChar ..) h
  | classWindowTimeout => exact served (.classTimeout ..) h
  | pollTimerExpiry => exact served (.timerExpires ..) h
  | drainComplete => exact served (.drain s) h
  | resetTaken => exact served (.resetPulse ..) h
  | powerApplied => exact served (.takeReset s) h
  | resetReleased => exact served (.releaseReset s) h
  | settlingComplete => exact served (.settled ..) h
  | setupReadEnd => exact served (.readEnds ..) h
  | lineReturnsRecessive => exact served (.runEnds ..) h

/-- Settles O12, command by command. -/
theorem slotsAndListsStayInAgreement : Obligations.SlotsAndListsStayInAgreement := by
  intro s t agree hstep
  unfold step at hstep
  split at hstep
  · cases hstep
    exact (State.KeepsSlots.cycle s).agree agree
  · rename_i c rest _
    have queued : s.KeepsSlots { s with pending := rest } :=
      .engines (fun p => by cases p <;> rfl) (fun _ => rfl) fun _ => .refl _
    exact (queued.trans (exec_keepsSlots hstep)).agree agree

end Sys2Proof.Machine
end

section
/-! PROOFS. `MapAgrees`: what an address map says of entries and of ASSIGNs, and what keeps it so (R15, R17). -/

namespace Sys2Proof.Machine

/-! ### What an address map says of entries -/

/-- A map with the slot of a line address replaced. -/
def setSlot (M : Seg → Byte → MapSlot) (g : Seg) (a : Byte) (m : MapSlot) : Seg → Byte → MapSlot :=
  fun k b => if k = g ∧ b = a ∧ isAddress a = true then m else M k b

/-- Places and maps agree (R15, R17): `P` gives each entry's address with its segment, `Q` its target, `H` the address whose
JOIN_HOLD a segment's ASSIGN holds, and `left` says whether a JOIN_HOLD that was cut off may stand (R189). -/
structure MapAgrees (P Q : Handle → Option (Seg × Byte)) (M : Seg → Byte → MapSlot) (left : Bool) (H : Seg → Option Byte) : Prop where
  address : ∀ h g a, P h = some (g, a) → isAddress a = true
  target : ∀ h g a, Q h = some (g, a) → isAddress a = true
  held : ∀ g a h, isAddress a = true → (M g a = .held h ↔ P h = some (g, a))
  reserved : ∀ g a h, isAddress a = true → (M g a = .reserved h ↔ Q h = some (g, a))
  joinHold : ∀ g a, isAddress a = true → M g a = .joinHold → left = true ∨ H g = some a
  holding : ∀ g a, H g = some a → isAddress a = true ∧ M g a = .joinHold

namespace MapAgrees

variable {P Q : Handle → Option (Seg × Byte)} {M : Seg → Byte → MapSlot} {left : Bool} {H : Seg → Option Byte} {h : Handle} {g : Seg}
  {a : Byte} (agree : MapAgrees P Q M left H)
include agree

/-- An entry without an address takes an EMPTY one. -/
theorem take (free : P h = none) (empty : M g a = .empty) (line : isAddress a = true) :
    MapAgrees (Function.update P h (some (g, a))) Q (setSlot M g a (.held h)) left H := by
  obtain ⟨h1, h2, h3, h4, h5, h6⟩ := agree
  constructor <;> grind [setSlot, Function.update_apply]

/-- An entry leaves its address. -/
theorem leave (seat : P h = some (g, a)) : MapAgrees (Function.update P h none) Q (setSlot M g a .empty) left H := by
  have slot : M g a = .held h := (agree.held g a h (agree.address h g a seat)).2 seat
  have alone (k : Handle) (hk : P k = some (g, a)) : k = h := by
    have := (agree.held g a k (agree.address h g a seat)).2 hk
    simpa [slot] using this.symm
  obtain ⟨h1, h2, h3, h4, h5, h6⟩ := agree
  constructor <;> grind [setSlot, Function.update_apply]

/-- An entry reserves an EMPTY target. -/
theorem reserve (none : Q h = none) (empty : M g a = .empty) (line : isAddress a = true) :
    MapAgrees P (Function.update Q h (some (g, a))) (setSlot M g a (.reserved h)) left H := by
  obtain ⟨h1, h2, h3, h4, h5, h6⟩ := agree
  constructor <;> grind [setSlot, Function.update_apply]

/-- An entry gives its target up. -/
theorem giveUp (target : Q h = some (g, a)) : MapAgrees P (Function.update Q h none) (setSlot M g a .empty) left H := by
  have slot : M g a = .reserved h := (agree.reserved g a h (agree.target h g a target)).2 target
  have alone (k : Handle) (hk : Q k = some (g, a)) : k = h := by
    have := (agree.reserved g a k (agree.target h g a target)).2 hk
    simpa [slot] using this.symm
  obtain ⟨h1, h2, h3, h4, h5, h6⟩ := agree
  constructor <;> grind [setSlot, Function.update_apply]

/-- An ASSIGN of an EMPTY address begins (R17). -/
theorem hold (none : H g = none) (empty : M g a = .empty) (line : isAddress a = true) :
    MapAgrees P Q (setSlot M g a .joinHold) left (Function.update H g (some a)) := by
  obtain ⟨h1, h2, h3, h4, h5, h6⟩ := agree
  constructor <;> grind [setSlot, Function.update_apply]

/-- The ASSIGN of an address is over, and its JOIN_HOLD EMPTY (R135). -/
theorem release (holds : H g = some a) : MapAgrees P Q (setSlot M g a .empty) left (Function.update H g none) := by
  obtain ⟨h1, h2, h3, h4, h5, h6⟩ := agree
  constructor <;> grind [setSlot, Function.update_apply]

end MapAgrees
end Sys2Proof.Machine
end

section
/-! PROOFS. `State.view`: what address maps and engines agree on, and what each shared change of the state does to it. -/

namespace Sys2Proof.Machine

/-! ### The view that the maps and the engines agree on -/

/-- The address of a held entry, with its segment. -/
def Entry.lies (e : Entry) : Option (Seg × Byte) := if e.isFree then none else some (e.segment, e.address)

/-- The target of a MOVING entry, with its segment. -/
def Entry.aims (e : Entry) : Option (Seg × Byte) :=
  match e.state with
  | .moving _ t => some (e.segment, t)
  | .free | .seeded | .present | .absent | .conflict | .retiring _ _ => none

/-- What an engine's soundness and its JOIN_HOLD depend on: its state, its work and its attempt. -/
structure Core where
  state : EngineState
  work : Option Work
  attempt : Option Attempt

def Engine.core (e : Engine) : Core := { state := e.state, work := e.activity.map Activity.work, attempt := e.line.attempt }

/-- The address whose JOIN_HOLD is held. -/
def Core.holding (c : Core) : Option Byte := c.work.bind Work.holding

/-- A state without work is idle in its line too; an attempt sends its work's frame. -/
def Core.sound (c : Core) : Prop :=
  (c.state ≠ .transaction → c.state ≠ .contest → c.work = none) ∧
    ∀ a ∈ c.attempt, ∃ w ∈ c.work, a.frame = w.frame ∧ (a.phase = .slots ∨ a.phase = .classWait → w = .callUnbound)

/-- What address maps and engines agree on. -/
structure View where
  lies : Handle → Option (Seg × Byte)
  aims : Handle → Option (Seg × Byte)
  slot : Seg → Byte → MapSlot
  left : Bool
  starting : Bool
  core : Seg → Core

def State.view (s : State) : View :=
  { lies := fun h => (s.entry h).lies
    aims := fun h => (s.entry h).aims
    slot := s.mapSlot
    left := s.runState.isSettling
    starting := s.runState.isStarting
    core := fun g => (s.engine g).core }

/-- Places, maps and engines agree. -/
def View.Sound (v : View) : Prop :=
  MapAgrees v.lies v.aims v.slot v.left (fun g => (v.core g).holding) ∧
    ∀ g, (v.core g).sound ∧ (v.starting = true → (v.core g).work = none)

theorem Engine.core_holding (e : Engine) : e.core.holding = e.holding := by
  unfold Core.holding Engine.core Engine.holding
  cases e.activity <;> rfl

theorem Engine.core_sound_iff (e : Engine) : e.core.sound ↔ e.sound := by
  unfold Core.sound Engine.core Engine.sound
  cases e.activity with
  | none => simp
  | some a => simp

theorem Entry.lies_eq_some {e : Entry} {g : Seg} {a : Byte} :
    e.lies = some (g, a) ↔ e.isFree = false ∧ e.segment = g ∧ e.address = a := by
  unfold Entry.lies
  cases e.isFree <;> simp

theorem Entry.aims_eq_some {e : Entry} {g : Seg} {a : Byte} :
    e.aims = some (g, a) ↔ e.segment = g ∧ ∃ p, e.state = .moving p a := by
  unfold Entry.aims
  cases e.state <;> simp

/-- The agreement of the view is the agreement of the state. -/
theorem State.view_sound_iff (s : State) : s.view.Sound ↔ s.mapsAgree ∧ s.enginesSound := by
  unfold View.Sound State.mapsAgree State.enginesSound
  refine and_congr ⟨fun agree => ?_, fun ⟨h1, h2, h3, h4⟩ => ?_⟩ (forall_congr' fun g => and_congr (Engine.core_sound_iff _) ?_)
  · obtain ⟨address, target, held, reserved, joinHold, holding⟩ := agree
    refine ⟨fun h free => address h _ _ (Entry.lies_eq_some.2 ⟨free, rfl, rfl⟩),
      fun h p t moving => target h _ _ (Entry.aims_eq_some.2 ⟨rfl, p, moving⟩),
      fun g a line => ⟨fun h => ⟨(held g a h line).trans Entry.lies_eq_some, (reserved g a h line).trans Entry.aims_eq_some⟩, fun hold => ?_⟩,
      fun g a hold => holding g a (by rw [show (s.view.core g).holding = _ from Engine.core_holding _]; exact hold)⟩
    rw [← Engine.core_holding]
    exact joinHold g a line hold
  · refine ⟨fun h g a lies => ?_, fun h g a aims => ?_, fun g a h line => ((h3 g a line).1 h).1.trans Entry.lies_eq_some.symm,
      fun g a h line => ((h3 g a line).1 h).2.trans Entry.aims_eq_some.symm, fun g a line hold => ?_, fun g a hold => ?_⟩
    · obtain ⟨free, -, rfl⟩ := Entry.lies_eq_some.1 lies
      exact h1 h free
    · obtain ⟨-, p, moving⟩ := Entry.aims_eq_some.1 aims
      exact h2 h p a moving
    · rw [show (s.view.core g).holding = _ from Engine.core_holding _]
      exact (h3 g a line).2 hold
    · exact h4 g a (by rw [← Engine.core_holding]; exact hold)
  · refine imp_congr .rfl ?_
    change (s.engine g).activity.map Activity.work = none ↔ _
    exact Option.map_eq_none_iff

/-! ### Changes of the view -/

namespace View

/-- Entry `h` comes to lie at `x` and to aim at `y`. -/
def seat (v : View) (h : Handle) (x y : Option (Seg × Byte)) : View :=
  { v with lies := Function.update v.lies h x, aims := Function.update v.aims h y }

/-- One map slot is written. -/
def put (v : View) (g : Seg) (a : Byte) (m : MapSlot) : View := { v with slot := setSlot v.slot g a m }

/-- One engine is written. -/
def run (v : View) (g : Seg) (c : Core) : View := { v with core := Function.update v.core g c }

theorem seat_self (v : View) {h : Handle} {x y : Option (Seg × Byte)} (lies : x = v.lies h) (aims : y = v.aims h) : v.seat h x y = v := by
  unfold seat
  rw [lies, aims, Function.update_eq_self, Function.update_eq_self]

theorem run_self (v : View) {g : Seg} {c : Core} (core : c = v.core g) : v.run g c = v := by
  unfold run
  rw [core, Function.update_eq_self]

@[simp] theorem run_run (v : View) (g : Seg) (c d : Core) : (v.run g c).run g d = v.run g d := by
  unfold run
  simp

@[simp] theorem run_core_same (v : View) (g : Seg) (c : Core) : (v.run g c).core g = c := by simp [run]

end View

section
variable (s : State)

theorem State.setEntry_view (h : Handle) (e : Entry) : (s.setEntry h e).view = s.view.seat h e.lies e.aims := by
  have entry (k : Handle) : (s.setEntry h e).entry k = if k = h then e else s.entry k := State.setEntry_entry ..
  unfold State.view View.seat
  simp only [entry]
  congr 1 <;> funext k <;> rw [Function.update_apply] <;> split <;> rfl

theorem State.setMap_view (g : Seg) (a : Byte) (m : MapSlot) : (s.setMap g a m).view = s.view.put g a m := by
  have slot : (s.setMap g a m).mapSlot = setSlot s.mapSlot g a m := by
    funext k b
    rw [State.setMap_mapSlot, mapIx_isSome]
    rfl
  unfold State.view View.put
  rw [slot]
  simp

theorem State.updEngine_view (g : Seg) (f : Engine → Engine) : (s.updEngine g f).view = s.view.run g (f (s.engine g)).core := by
  unfold State.view View.run
  simp only [State.updEngine_engine]
  congr 1
  funext k
  rw [Function.update_apply]
  split <;> rfl

/-- The engine keeps what the maps agree with. -/
theorem State.updEngine_view_same {g : Seg} {f : Engine → Engine} (state : ∀ e, (f e).state = e.state)
    (activity : ∀ e, (f e).activity = e.activity) (attempt : ∀ e, (f e).line.attempt = e.line.attempt) :
    (s.updEngine g f).view = s.view := by
  rw [State.updEngine_view, View.run_self]
  unfold Engine.core
  rw [state, activity, attempt]
  rfl


theorem RunState.woken_isSettling (r : RunState) : r.woken.isSettling = r.isSettling := by cases r <;> rfl

/-- Whatever else changes, or a wake signal passes. -/
theorem State.view_congr {s t : State} (entries : t.entries = s.entries) (maps : t.maps = s.maps) (engines : t.engines = s.engines)
    (woken : s.atMostWoken t) : t.view = s.view := by
  have left : t.runState.isSettling = s.runState.isSettling := by
    obtain e | e := woken <;> rw [e]
    exact RunState.woken_isSettling _
  have slots : t.mapSlot = s.mapSlot := by
    funext g a
    unfold State.mapSlot
    rw [maps]
  unfold State.view State.entry State.engine
  rw [entries, engines, left, woken.isStarting, slots]

@[simp] theorem State.setPort_view (p : PortId) (x : PortState) : (s.setPort p x).view = s.view :=
  State.view_congr (by simp) (by simp) (by simp) (.inl (by simp))

@[simp] theorem State.updPort_view (p : PortId) (f : PortState → PortState) : (s.updPort p f).view = s.view := by
  rw [State.updPort_eq, State.setPort_view]

@[simp] theorem State.wake_view : s.wake.view = s.view :=
  State.view_congr (by simp) (by simp) (by simp) (.inr (by simp))

@[simp] theorem State.raise_view (n : Notice) : (s.raise n).view = s.view := by
  rw [State.raise_eq]
  exact State.view_congr rfl rfl rfl (State.atMostWoken_noticed s n)

/-- A directory event gives the entry its place. -/
theorem State.change_view (h : Handle) (e : Entry) : (s.change h e).view = s.view.seat h e.lies e.aims := by
  have handed (t : State) : (t.handOver h).view = t.view := by
    rw [State.handOver_eq]
    refine State.view_congr rfl rfl rfl ?_
    dsimp only [State.atMostWoken]
    split
    · exact .inr rfl
    · exact .inl rfl
  unfold State.change
  split
  · rw [handed, State.setEntry_view]
    rfl
  · rw [State.setEntry_view]
    rfl

@[simp] theorem State.finish_view (p : PortId) (i : SlotIx) (a : Answer) : (s.finish p i a).view = s.view := s.updPort_view ..

@[simp] theorem State.answering_view (l : List (PortId × SlotIx × Answer)) : (s.answering l).view = s.view :=
  State.view_congr (by simp) (by simp) (by simp) (.inl (by simp))

@[simp] theorem State.finishOwner_view (o : Option Owner) (a : Answer) : (s.finishOwner o a).view = s.view := by
  rw [State.finishOwner_answering, State.answering_view]

@[simp] theorem State.updPass_view (g : Seg) (f : PassRecord → PassRecord) : (s.updPass g f).view = s.view := by
  rw [State.updPass_eq]
  exact State.updEngine_view_same s (fun _ => rfl) (fun _ => rfl) fun _ => rfl

@[simp] theorem State.endPass_view (g : Seg) (r : EndReason) : (s.endPass g r).view = s.view := by
  rw [State.endPass_answering, State.updEngine_view_same, State.answering_view] <;> exact fun _ => rfl

@[simp] theorem State.appendResolution_view (g : Seg) (h : Handle) : (s.appendResolution g h).view = s.view := by
  by_cases listed : h ∈ (s.engine g).resolution
  · rw [State.appendResolution_of_mem s g h listed]
  · rw [State.appendResolution_eq s g h listed]
    exact State.updEngine_view_same s (fun _ => rfl) (fun _ => rfl) fun _ => rfl

@[simp] theorem State.dropResolution_view (g : Seg) (h : Handle) : (s.dropResolution g h).view = s.view := by
  rw [State.dropResolution_eq]
  exact State.updEngine_view_same s (fun _ => rfl) (fun _ => rfl) fun _ => rfl

/-! ### An entry that stays where it is -/

/-- A held entry lies at its address, and aims nowhere, unless it is MOVING. -/
def View.settle (v : View) (h : Handle) (e : Entry) : View := v.seat h (some (e.segment, e.address)) none

/-- A state of a held entry that is not MOVING. -/
def EntryState.rests : EntryState → Bool
  | .seeded | .present | .absent | .conflict | .retiring _ _ => true
  | .free | .moving _ _ => false

theorem Entry.rests_places {e : Entry} (h : e.state.rests = true) : e.lies = some (e.segment, e.address) ∧ e.aims = none := by
  unfold Entry.lies Entry.aims Entry.isFree
  cases hs : e.state <;> rw [hs] at h <;> simp_all [EntryState.rests]

theorem View.settle_self {h : Handle} (rests : (s.entry h).state.rests = true) : s.view.settle h (s.entry h) = s.view :=
  View.seat_self _ (Entry.rests_places rests).1.symm (Entry.rests_places rests).2.symm

/-- A directory event that leaves the entry at its address, and in no MOVE. -/
theorem State.change_settle {h : Handle} {e : Entry} (rests : e.state.rests = true) (segment : e.segment = (s.entry h).segment)
    (address : e.address = (s.entry h).address) : (s.change h e).view = s.view.settle h (s.entry h) := by
  obtain ⟨lies, aims⟩ := Entry.rests_places rests
  rw [State.change_view, lies, aims, segment, address, View.settle]

theorem State.makeAbsent_view (h : Handle) (n : Nat) : (s.makeAbsent h n).view = s.view.settle h (s.entry h) := by
  rw [State.makeAbsent, State.raise_view]
  exact s.change_settle rfl rfl rfl

theorem State.makeConflict_view (g : Seg) (h : Handle) : (s.makeConflict g h).view = s.view.settle h (s.entry h) := by
  rw [State.makeConflict, State.raise_view, State.appendResolution_view]
  exact s.change_settle rfl rfl rfl

theorem State.confirm_view (h : Handle) : (s.confirm h).view = s.view.settle h (s.entry h) := s.change_settle rfl rfl rfl

theorem State.restore_view (h : Handle) (p : Prior) (n : Nat) : (s.restore h p n).view = s.view.settle h (s.entry h) := by
  unfold State.restore
  cases p with
  | seeded | present =>
    dsimp only
    split
    · exact s.makeAbsent_view h n
    · exact s.change_settle rfl rfl rfl
  | absent | conflict => exact s.change_settle rfl rfl rfl

theorem State.setEntry_view_same {h : Handle} {e : Entry} (state : e.state = (s.entry h).state) (segment : e.segment = (s.entry h).segment)
    (address : e.address = (s.entry h).address) : (s.setEntry h e).view = s.view := by
  rw [State.setEntry_view]
  refine View.seat_self _ ?_ ?_
  · unfold Entry.lies Entry.isFree
    rw [state, segment, address]
    rfl
  · unfold Entry.aims
    rw [state, segment]
    rfl

theorem State.change_view_same {h : Handle} {e : Entry} (state : e.state = (s.entry h).state) (segment : e.segment = (s.entry h).segment)
    (address : e.address = (s.entry h).address) : (s.change h e).view = s.view := by
  rw [State.change_view, ← State.setEntry_view, State.setEntry_view_same s state segment address]

end
end Sys2Proof.Machine
end

section
/-! PROOFS. Changes of the view that keep it sound: entries that take, leave, reserve and give up addresses, ASSIGNs that begin and end. -/

namespace Sys2Proof.Machine

/-! ### Views that stay sound -/

theorem setSlot_same (M : Seg → Byte → MapSlot) (g : Seg) (a : Byte) (m n : MapSlot) :
    setSlot (setSlot M g a m) g a n = setSlot M g a n := by
  funext k b
  unfold setSlot
  split <;> rfl

theorem setSlot_comm (M : Seg → Byte → MapSlot) {g k : Seg} {a b : Byte} (m n : MapSlot) (other : ¬ (g = k ∧ a = b)) :
    setSlot (setSlot M g a m) k b n = setSlot (setSlot M k b n) g a m := by
  funext x y
  unfold setSlot
  split
  · rename_i hk
    rw [if_neg]
    exact fun hg => other ⟨hg.1.symm.trans hk.1, hg.2.1.symm.trans hk.2.1⟩
  · rfl

/-- An engine without work. -/
def Core.idle (st : EngineState) : Core := { state := st, work := none, attempt := none }

/-- An engine with new work, its first attempt under way. -/
def Core.begun (st : EngineState) (w : Work) : Core := { state := st, work := some w, attempt := some (newAttempt w.frame) }

theorem Core.idle_sound (st : EngineState) : (Core.idle st).sound := ⟨fun _ _ => rfl, fun _ h => nomatch h⟩

theorem Core.begun_sound {st : EngineState} (busy : st = .transaction ∨ st = .contest) (w : Work) : (Core.begun st w).sound := by
  refine ⟨fun h h' => (busy.elim h h').elim, fun a ha => ⟨w, rfl, ?_, fun phase => ?_⟩⟩
  · cases ha
    rfl
  · cases ha
    exact phase.elim (fun h => nomatch h) fun h => nomatch h

namespace View.Sound

variable {v : View} (h : v.Sound)
include h

theorem maps {P Q : Handle → Option (Seg × Byte)} {M : Seg → Byte → MapSlot}
    (agree : MapAgrees P Q M v.left fun g => (v.core g).holding) : View.Sound { v with lies := P, aims := Q, slot := M } := ⟨agree, h.2⟩

theorem rewrite {P Q : Handle → Option (Seg × Byte)} {M : Seg → Byte → MapSlot} {g : Seg} {c : Core} (sound : c.sound)
    (idle : v.starting = true → c.work = none)
    (agree : MapAgrees P Q M v.left (Function.update (fun k => (v.core k).holding) g c.holding)) :
    View.Sound { v with lies := P, aims := Q, slot := M, core := Function.update v.core g c } := by
  refine ⟨?_, fun k => ?_⟩
  · have holding : (fun k => (Function.update v.core g c k).holding) = Function.update (fun k => (v.core k).holding) g c.holding := by
      funext k
      rw [Function.update_apply, Function.update_apply]
      split <;> rfl
    dsimp only
    rw [holding]
    exact agree
  · dsimp only
    rw [Function.update_apply]
    split
    · exact ⟨sound, idle⟩
    · exact h.2 k

/-- An engine rewritten that holds what it held. -/
theorem run {g : Seg} {c : Core} (sound : c.sound) (idle : v.starting = true → c.work = none) (holding : c.holding = (v.core g).holding) :
    (v.run g c).Sound := by
  refine h.rewrite sound idle ?_
  rw [holding]
  exact (Function.update_eq_self (f := fun k => (v.core k).holding) g).symm ▸ h.1

variable {x : Handle} {g : Seg} {a : Byte}

theorem giveUp {y : Seg × Byte} (lies : v.lies x = some y) (aims : v.aims x = some (g, a)) :
    ((v.put g a .empty).seat x (some y) none).Sound := by
  have given := h.maps (h.1.giveUp aims)
  rw [← Function.update_eq_self (f := v.lies) x, lies] at given
  exact given

theorem leave (lies : v.lies x = some (g, a)) (aims : v.aims x = none) : ((v.put g a .empty).seat x none none).Sound := by
  have left := h.maps (h.1.leave lies)
  rw [← Function.update_eq_self (f := v.aims) x, aims] at left
  exact left

theorem take (lies : v.lies x = none) (aims : v.aims x = none) (empty : v.slot g a = .empty) (line : isAddress a = true) :
    ((v.put g a (.held x)).seat x (some (g, a)) none).Sound := by
  have taken := h.maps (h.1.take lies empty line)
  rw [← Function.update_eq_self (f := v.aims) x, aims] at taken
  exact taken

theorem reserve {y : Seg × Byte} (lies : v.lies x = some y) (aims : v.aims x = none) (empty : v.slot g a = .empty)
    (line : isAddress a = true) : ((v.put g a (.reserved x)).seat x (some y) (some (g, a))).Sound := by
  have reserved := h.maps (h.1.reserve aims empty line)
  rw [← Function.update_eq_self (f := v.lies) x, lies] at reserved
  exact reserved

/-- A MOVE completes: the target is given up, the address left, and the target taken (R151). -/
theorem complete {t : Byte} (lies : v.lies x = some (g, a)) (aims : v.aims x = some (g, t)) :
    (((v.put g a .empty).put g t (.held x)).seat x (some (g, t)) none).Sound := by
  have line : isAddress t = true := h.1.target x g t aims
  have other : ¬ (g = g ∧ t = a) := fun e => by
    have here := (h.1.held g a x (h.1.address x g a lies)).2 lies
    have there := (h.1.reserved g t x line).2 aims
    rw [e.2, here] at there
    cases there
  have left := (h.1.giveUp aims).leave lies
  have taken := left.take (h := x) (g := g) (a := t) (by simp) (by simp [setSlot, line]) line
  rw [setSlot_comm _ _ _ other, setSlot_same] at taken
  have done := h.maps taken
  rw [Function.update_idem] at done
  exact done

variable {c : Core} (sound : c.sound) (idle : v.starting = true → c.work = none)
include sound idle

/-- An ASSIGN of an EMPTY address begins. -/
theorem assign (holding : (v.core g).holding = none) (empty : v.slot g a = .empty) (line : isAddress a = true) (holds : c.holding = some a) :
    ((v.put g a .joinHold).run g c).Sound := h.rewrite sound idle (holds ▸ h.1.hold holding empty line)

/-- An ASSIGN is over and its JOIN_HOLD EMPTY. -/
theorem release (holding : (v.core g).holding = some a) (free : c.holding = none) : ((v.put g a .empty).run g c).Sound :=
  h.rewrite sound idle (free ▸ h.1.release holding)

/-- An ASSIGN is over, and an entry that lay nowhere lies at its address. -/
theorem join (holding : (v.core g).holding = some a) (free : c.holding = none) (lies : v.lies x = none) (aims : v.aims x = none) :
    (((v.put g a (.held x)).seat x (some (g, a)) none).run g c).Sound := by
  have line : isAddress a = true := (h.1.holding g a holding).1
  have taken := (h.1.release holding).take (h := x) (g := g) (a := a) lies (by simp [setSlot, line]) line
  rw [setSlot_same, ← free] at taken
  have done := h.rewrite sound idle taken
  rw [← Function.update_eq_self (f := v.aims) x, aims] at done
  exact done

/-- An ASSIGN is over, and an entry comes to lie at its address (R133). -/
theorem transfer {k : Seg} {b : Byte} (holding : (v.core g).holding = some a) (free : c.holding = none) (lies : v.lies x = some (k, b))
    (aims : v.aims x = none) : ((((v.put k b .empty).put g a (.held x)).seat x (some (g, a)) none).run g c).Sound := by
  have line : isAddress a = true := (h.1.holding g a holding).1
  have other : ¬ (g = k ∧ a = b) := fun ⟨hg, ha⟩ => by
    have here := (h.1.held k b x (h.1.address x k b lies)).2 lies
    rw [← hg, ← ha, (h.1.holding g a holding).2] at here
    cases here
  have left := (h.1.release holding).leave lies
  have taken := left.take (h := x) (g := g) (a := a) (by simp) (by simp [setSlot, line]) line
  rw [setSlot_comm _ _ _ other, setSlot_same, Function.update_idem, ← free] at taken
  have done := h.rewrite sound idle taken
  rw [← Function.update_eq_self (f := v.aims) x, aims] at done
  exact done

end View.Sound
end Sys2Proof.Machine
end

section
/-! PROOFS. `State.KeepsMaps`, and the effects of outcomes on the directory (R86, R94, R110 to R116, R143, R151, R156). -/

namespace Sys2Proof.Machine

/-! ### Events that keep places, maps and engines in agreement -/

/-- From `s` to `t` the agreement of places, maps and engines is kept. -/
structure State.KeepsMaps (s t : State) : Prop where
  sound : s.view.Sound → t.view.Sound

namespace State.KeepsMaps

theorem same {s t : State} (view : t.view = s.view) : s.KeepsMaps t := ⟨fun h => view ▸ h⟩

theorem refl (s : State) : s.KeepsMaps s := ⟨id⟩

theorem trans {s t u : State} (h : s.KeepsMaps t) (k : t.KeepsMaps u) : s.KeepsMaps u := ⟨k.sound ∘ h.sound⟩

theorem ite {s t u : State} {c : Prop} [Decidable c] (yes : c → s.KeepsMaps t) (no : ¬ c → s.KeepsMaps u) :
    s.KeepsMaps (if c then t else u) := by
  split
  · exact yes ‹_›
  · exact no ‹_›

end State.KeepsMaps

/-! ### Changes of an entry -/

section
variable (s : State)

theorem State.setSilence_view (h : Handle) (n : Nat) : (s.setSilence h n).view = s.view := s.setEntry_view_same rfl rfl rfl

theorem State.countSilence_view {h : Handle} (rests : (s.entry h).state.rests = true) : (s.countSilence h).view = s.view := by
  unfold State.countSilence
  dsimp only
  split
  · rw [State.makeAbsent_view, View.settle_self s rests]
  · exact s.setSilence_view h _

theorem State.view_aims {h : Handle} {p : Prior} {t : Byte} (moving : (s.entry h).state = .moving p t) :
    s.view.lies h = some ((s.entry h).segment, (s.entry h).address) ∧ s.view.aims h = some ((s.entry h).segment, t) :=
  ⟨Entry.lies_eq_some.2 ⟨by simp [Entry.isFree, moving], rfl, rfl⟩, Entry.aims_eq_some.2 ⟨rfl, p, moving⟩⟩

theorem State.view_rests {h : Handle} (rests : (s.entry h).state.rests = true) :
    s.view.lies h = some ((s.entry h).segment, (s.entry h).address) ∧ s.view.aims h = none := Entry.rests_places rests

theorem State.view_free {h : Handle} (free : (s.entry h).isFree = true) : s.view.lies h = none ∧ s.view.aims h = none := by
  have state : (s.entry h).state = .free := ((s.entry h).isFree_iff).1 free
  constructor
  · change (s.entry h).lies = none
    simp [Entry.lies, free]
  · change (s.entry h).aims = none
    simp [Entry.aims, state]

/-- A MOVING entry whose target is given up stays at its address. -/
theorem State.KeepsMaps.giveUp {h : Handle} {p : Prior} {t : Byte} (moving : (s.entry h).state = .moving p t) {u : State}
    (view : u.view = (s.setMap (s.entry h).segment t .empty).view.settle h (s.entry h)) : s.KeepsMaps u := .mk fun sound => by
  obtain ⟨lies, aims⟩ := s.view_aims moving
  rw [view, State.setMap_view]
  exact sound.giveUp lies aims

theorem State.KeepsMaps.returnEntry (h : Handle) : s.KeepsMaps (s.returnEntry h) := by
  unfold State.returnEntry
  split
  · rename_i p t moving
    refine State.KeepsMaps.giveUp s moving ?_
    rw [State.restore_view, State.setMap_entry]
  · rename_i p f retiring
    refine .same ?_
    rw [State.restore_view, View.settle_self s (by rw [retiring]; rfl)]
  all_goals exact .refl s

theorem State.KeepsMaps.endMove (h : Handle) {f : State → State} (hf : ∀ t : State, (f t).view = t.view.settle h (t.entry h)) :
    s.KeepsMaps (s.endMove h f) := by
  unfold State.endMove
  split
  · rename_i p t moving
    refine State.KeepsMaps.giveUp s moving ?_
    rw [hf, State.setMap_entry]
  all_goals exact .refl s

theorem State.KeepsMaps.completeMove (h : Handle) : s.KeepsMaps (s.completeMove h) := by
  unfold State.completeMove
  split
  · rename_i p t moving
    refine .mk fun sound => ?_
    obtain ⟨lies, aims⟩ := s.view_aims moving
    rw [State.change_view, State.setMap_view, State.setMap_view]
    exact sound.complete lies aims
  all_goals exact .refl s

theorem State.KeepsMaps.freeRetired {h : Handle} (rests : (s.entry h).state.rests = true) :
    s.KeepsMaps (s.freeRetired h) := .mk fun sound => by
  obtain ⟨lies, aims⟩ := s.view_rests rests
  rw [State.freeRetired, State.raise_view, State.change_view, State.setMap_view]
  exact sound.leave lies aims

/-! ### Effects of outcomes -/

theorem State.makeConflict_view_rests (g : Seg) {h : Handle} (rests : (s.entry h).state.rests = true) :
    (s.makeConflict g h).view = s.view := by
  rw [State.makeConflict_view, View.settle_self s rests]

theorem State.confirm_view_rests {h : Handle} (rests : (s.entry h).state.rests = true) : (s.confirm h).view = s.view := by
  rw [State.confirm_view, View.settle_self s rests]

theorem State.makeAbsent_view_rests {h : Handle} (rests : (s.entry h).state.rests = true) (n : Nat) : (s.makeAbsent h n).view = s.view := by
  rw [State.makeAbsent_view, View.settle_self s rests]

theorem State.hostOutcome_view (g : Seg) (h : Handle) (x : Ident) (sg : Seg) (o : LineOutcome) :
    (s.hostOutcome g h x sg o).view = s.view := by
  unfold State.hostOutcome
  split
  · cases o with
    | accept | refuse => exact s.setSilence_view h 0
    | noReply | framing =>
      dsimp only
      split
      case h_1 | h_2 => exact s.countSilence_view (by simp [*, EntryState.rests])
      case h_3 | h_4 => exact s.setSilence_view h _
      all_goals rfl
    | collision =>
      dsimp only
      split
      case h_1 | h_2 | h_3 => exact s.makeConflict_view_rests g (by simp [*, EntryState.rests])
      case h_4 => exact s.appendResolution_view g h
      all_goals rfl
    | contention | sent | stuck => rfl
  · rfl

theorem State.KeepsMaps.ageAbsent {h : Handle} (rests : (s.entry h).state.rests = true) : s.KeepsMaps (s.ageAbsent h) := by
  have aged :
      (s.setEntry h { s.entry h with silence := moreSilence (s.entry h).silence, age := moreAge (s.entry h).age }).view = s.view :=
    s.setEntry_view_same rfl rfl rfl
  unfold State.ageAbsent
  dsimp only
  refine .ite (fun _ => (State.KeepsMaps.same aged).trans (.freeRetired _ ?_)) fun _ => .same aged
  rw [State.setEntry_entry_same]
  exact rests

theorem State.KeepsMaps.pollOutcome (g : Seg) (h : Handle) (x : Ident) (sg : Seg) (o : LineOutcome) :
    s.KeepsMaps (s.pollOutcome g h x sg o) := by
  unfold State.pollOutcome
  refine .ite (fun _ => ?_) fun _ => .refl s
  split
  case h_1 | h_2 =>
    have rests : (s.entry h).state.rests = true := by simp [*, EntryState.rests]
    cases o with
    | accept d => exact .ite (fun _ => .same (s.confirm_view_rests rests)) fun _ => .same (s.makeConflict_view_rests g rests)
    | collision => exact .same (s.makeConflict_view_rests g rests)
    | noReply | framing => exact .same (s.countSilence_view rests)
    | refuse | contention | sent | stuck => exact .refl s
  case h_3 =>
    have rests : (s.entry h).state.rests = true := by simp [*, EntryState.rests]
    cases o with
    | accept d => exact .ite (fun _ => .same (s.confirm_view_rests rests)) fun _ => .same (s.makeConflict_view_rests g rests)
    | collision => exact .same (s.makeConflict_view_rests g rests)
    | noReply | framing => exact .ageAbsent s rests
    | refuse | contention | sent | stuck => exact .refl s
  case h_4 | h_5 => exact .ite (fun _ => .same (s.setSilence_view h 0)) fun _ => .refl s
  all_goals exact .refl s

theorem State.resolutionOutcome_view (g : Seg) (h : Handle) (x : Ident) (o : LineOutcome) :
    (s.resolutionOutcome g h x o).view = s.view := by
  unfold State.resolutionOutcome
  dsimp only
  rw [State.dropResolution_view]
  split
  case h_1 =>
    have rests : (s.entry h).state.rests = true := by simp [*, EntryState.rests]
    cases o with
    | accept d =>
      dsimp only
      split
      · exact s.confirm_view_rests rests
      · rfl
    | noReply => exact s.makeAbsent_view_rests rests _
    | refuse | framing | collision | contention | sent | stuck => rfl
  case h_2 =>
    split
    · exact s.setSilence_view h 0
    · rfl
  all_goals rfl

theorem State.KeepsMaps.retireEffect (g : Seg) (h : Handle) (force : Bool) (o : LineOutcome) :
    s.KeepsMaps (s.retireEffect g h force o) := by
  unfold State.retireEffect
  split
  case h_1 =>
    have rests : (s.entry h).state.rests = true := by simp [*, EntryState.rests]
    have restored (p : Prior) (n : Nat) : s.KeepsMaps (s.restore h p n) := .same (by rw [State.restore_view, View.settle_self s rests])
    refine .ite (fun _ => .freeRetired s rests) fun _ => ?_
    cases o with
    | accept d => exact .freeRetired s rests
    | collision => exact .same (s.makeConflict_view_rests g rests)
    | refuse | noReply | framing | contention | sent | stuck => exact restored ..
  all_goals exact .refl s

theorem State.KeepsMaps.returnItems (xs : List QueueItem) : s.KeepsMaps (s.returnItems xs) := by
  have item (t : State) (x : QueueItem) : t.KeepsMaps (t.returnItem x) := by
    unfold State.returnItem
    split
    · exact .ite (fun _ => .returnEntry ..) fun _ => .refl t
    · exact .refl t
  unfold State.returnItems
  induction xs generalizing s with
  | nil => exact .refl s
  | cons x xs ih => exact (item s x).trans (ih _)

end
end Sys2Proof.Machine
end

section
/-! PROOFS. The end of an activity, its next step, MOVE ladders and contests keep the maps in agreement (R72, R84, R125, R127, R151). -/

namespace Sys2Proof.Machine

/-! ### Activities that end and go on -/

section
variable {s : State} {g : Seg} {a : Activity}

theorem State.view_core (ha : (s.engine g).activity = some a) : (s.view.core g).work = some a.work := by
  change (s.engine g).core.work = _
  rw [Engine.core, ha]
  rfl

theorem State.view_holding (ha : (s.engine g).activity = some a) : (s.view.core g).holding = a.work.holding := by
  rw [Core.holding, State.view_core ha]
  rfl

/-- An engine at work is in TRANSACTION or CONTEST, and out of STARTING. -/
theorem View.Sound.busy (sound : s.view.Sound) (ha : (s.engine g).activity = some a) :
    ((s.engine g).state = .transaction ∨ (s.engine g).state = .contest) ∧ s.view.starting = false := by
  obtain ⟨⟨idle, -⟩, out⟩ := sound.2 g
  rw [State.view_core ha] at idle out
  refine ⟨Classical.byContradiction fun n => ?_, Bool.eq_false_iff.2 fun starting => nomatch out starting⟩
  obtain ⟨n, n'⟩ := not_or.1 n
  exact nomatch idle n n'

end

section
variable (s : State) (g : Seg)

theorem State.endActivity_view : ∃ st, (s.endActivity g).view = s.view.run g (.idle st) := by
  have ended : (s.updEngine g Engine.afterActivity).view = s.view.run g (.idle (s.engine g).afterActivity.state) := by
    rw [State.updEngine_view]
    refine congrArg _ ?_
    unfold Engine.afterActivity
    split <;> rfl
  refine ⟨(s.engine g).afterActivity.state, ?_⟩
  unfold State.endActivity
  dsimp only
  split
  · exact ended
  · rw [State.endPass_view, ended]

theorem State.endContest_view : ∃ st, (s.endContest g).view = s.view.run g (.idle st) := by
  unfold State.endContest
  dsimp only
  split
  · obtain ⟨st, view⟩ := (s.endPass g .limit).endActivity_view g
    exact ⟨st, by rw [view, State.endPass_view]⟩
  · exact s.endActivity_view g

theorem State.stepTo_view (a : Activity) (w : Work) : (s.stepTo g a w).view = s.view.run g (.begun (s.engine g).state w) :=
  s.updEngine_view ..

theorem State.retry_view (a : Activity) : (s.retry g a).view = s.view.run g (.begun (s.engine g).state a.work) := s.updEngine_view ..

theorem State.begin_view (st : EngineState) (w : Work) (o : Option Owner) : (s.begin g st w o).view = s.view.run g (.begun st w) :=
  s.updEngine_view ..

end

namespace State.KeepsMaps

section
variable {s t : State} {g : Seg} (k : s.KeepsMaps t)
include k

/-- An engine that holds no JOIN_HOLD ends its work. -/
theorem idles (free : (t.view.core g).holding = none) {u : State} {st : EngineState} (view : u.view = t.view.run g (.idle st)) :
    s.KeepsMaps u := .mk fun sound => view ▸ (k.sound sound).run (Core.idle_sound st) (fun _ => rfl) free.symm

variable {a : Activity} (ha : (t.engine g).activity = some a) (free : a.work.holding = none)
include ha free

theorem ends : s.KeepsMaps (t.endActivity g) := by
  obtain ⟨st, view⟩ := t.endActivity_view g
  exact k.idles ((State.view_holding ha).trans free) view

theorem endsContest : s.KeepsMaps (t.endContest g) := by
  obtain ⟨st, view⟩ := t.endContest_view g
  exact k.idles ((State.view_holding ha).trans free) view

theorem steps {w : Work} (none : w.holding = none) : s.KeepsMaps (t.stepTo g a w) := .mk fun sound => by
  obtain ⟨busy, out⟩ := (k.sound sound).busy ha
  rw [State.stepTo_view]
  refine (k.sound sound).run (Core.begun_sound busy w) (fun starting => ?_) ?_
  · rw [out] at starting
    cases starting
  · rw [State.view_holding ha, free]
    exact none

end

section
variable {s : State} {g : Seg} {a : Activity} (ha : (s.engine g).activity = some a)
include ha

theorem retry : s.KeepsMaps (s.retry g a) := .mk fun sound => by
  obtain ⟨busy, out⟩ := sound.busy ha
  rw [State.retry_view]
  refine sound.run (Core.begun_sound busy a.work) (fun starting => ?_) (State.view_holding ha).symm
  rw [out] at starting
  cases starting

/-- Work without a JOIN_HOLD ends with its effect on the directory and its answer. -/
theorem concluded {t : State} (free : a.work.holding = none) (k : s.KeepsMaps t) (d : s.DirectoryOnly t) (b : Answer) :
    s.KeepsMaps ((t.finishOwner a.owner b).endActivity g) := by
  have answered : s.KeepsMaps (t.finishOwner a.owner b) := k.trans (.same (State.finishOwner_view ..))
  refine answered.ends ?_ free
  rw [State.finishOwner_answering, State.answering_engine, d.activity, ha]

theorem moveOutcome (free : a.work.holding = none) (step : MoveStep) (h : Handle) (addr target : Byte) (x : Ident) (o : LineOutcome) :
    s.KeepsMaps (s.moveOutcome g a step h addr target x o) := by
  have go (n : MoveStep) : s.KeepsMaps (s.stepTo g a (.move n h addr target x)) := (State.KeepsMaps.refl s).steps ha free rfl
  have ends {t : State} (k : s.KeepsMaps t) (d : s.DirectoryOnly t) (st : Status) (code : Byte) (n : MoveStep) :
      s.KeepsMaps (t.finishMove g a h st code n) := concluded ha free k d _
  have confirmed (st : Status) (code : Byte) (n : MoveStep) : s.KeepsMaps ((s.endMove h (·.confirm h)).finishMove g a h st code n) :=
    ends (.endMove s h fun t => t.confirm_view h) (.endMove _ _ fun _ => .confirm ..) ..
  have disputed (st : Status) (code : Byte) (n : MoveStep) :
      s.KeepsMaps ((s.endMove h fun t => t.makeConflict g h).finishMove g a h st code n) :=
    ends (.endMove s h fun t => t.makeConflict_view g h) (.endMove _ _ fun _ => .makeConflict ..) ..
  have returned (st : Status) (code : Byte) (n : MoveStep) : s.KeepsMaps ((s.returnEntry h).finishMove g a h st code n) :=
    ends (.returnEntry s h) (.returnEntry ..) ..
  have absent (st : Status) (code : Byte) (n : MoveStep) :
      s.KeepsMaps ((s.endMove h fun t => t.makeAbsent h (t.entry h).silence).finishMove g a h st code n) :=
    ends (.endMove s h fun t => t.makeAbsent_view h _) (.endMove _ _ fun _ => .makeAbsent ..) ..
  unfold State.moveOutcome
  cases step with
  | one =>
    cases o with
    | accept d => exact go .two
    | refuse c => exact confirmed ..
    | noReply | framing => exact go .three
    | collision => exact disputed ..
    | contention | sent | stuck => exact returned ..
  | two =>
    cases o with
    | accept d => exact ite (fun _ => ends (.completeMove s h) (.completeMove ..) ..) fun _ => go .stray
    | collision => exact go .stray
    | refuse | noReply | framing | contention | sent | stuck => exact go .three
  | stray => exact go .three
  | three =>
    cases o with
    | accept d => exact ite (fun _ => confirmed ..) fun _ => disputed ..
    | noReply | framing => exact absent ..
    | collision => exact disputed ..
    | contention | refuse | sent | stuck => exact returned ..

/-! ### Contests and joins -/

theorem contestLost (free : a.work.holding = none) : s.KeepsMaps (s.contestLost g) :=
  endsContest (.same (State.updPass_view ..)) (a := a) (by rw [State.updPass_eq, State.updEngine_engine_same]; exact ha) free

theorem noContender (free : a.work.holding = none) : s.KeepsMaps (s.noContender g) := by
  have counted : (s.updPass g PassRecord.countContest).view = s.view := State.updPass_view ..
  unfold State.noContender
  dsimp only
  split
  · obtain ⟨st, view⟩ := ((s.updPass g PassRecord.countContest).endPass g .noneLeft).endActivity_view g
    refine (State.KeepsMaps.refl s).idles ((State.view_holding ha).trans free) (st := st) ?_
    rw [view, State.endPass_view, counted]
  · obtain ⟨st, view⟩ := (s.updPass g PassRecord.countContest).endActivity_view g
    refine (State.KeepsMaps.refl s).idles ((State.view_holding ha).trans free) (st := st) ?_
    rw [view, counted]

/-- The ASSIGN that a won contest leads to holds an address that was EMPTY (R17, R127). -/
theorem contestWon (free : a.work.holding = none) (w : Ident) (c : Byte) : s.KeepsMaps (s.contestWon g a w c) := by
  have counted : (s.updPass g PassRecord.countContest).view = s.view := State.updPass_view ..
  have active : ((s.updPass g PassRecord.countContest).engine g).activity = some a := by
    rw [State.updPass_eq, State.updEngine_engine_same]
    exact ha
  have holds {v : Work} {adr : Byte} (hv : v.holding = some adr) (vacant : s.lowestEmpty g = some adr) :
      s.KeepsMaps (((s.updPass g PassRecord.countContest).setMap g adr .joinHold).stepTo g a v) := .mk fun sound => by
    have found : (s.inPool g adr && s.mapSlot g adr == .empty) = true := by
      have := List.find?_some vacant
      exact this
    have empty : s.mapSlot g adr = .empty := by
      rw [Bool.and_eq_true] at found
      simpa using found.2
    have line : isAddress adr = true := mem_allAddresses.1 (List.mem_of_find?_eq_some vacant)
    obtain ⟨busy, out⟩ := sound.busy ha
    rw [State.stepTo_view, State.setMap_view, counted, State.setMap_engine, State.updPass_eq, State.updEngine_engine_same]
    refine sound.assign (Core.begun_sound busy v) (fun starting => ?_) ((State.view_holding ha).trans free) empty line hv
    rw [out] at starting
    cases starting
  have goes {t : State} (view : t.view = s.view) (engine : (t.engine g).activity = some a) {v : Work} (none : v.holding = none) :
      s.KeepsMaps (t.stepTo g a v) := steps (.same view) engine free none
  unfold State.contestWon
  dsimp only
  split
  · rename_i adr decision
    refine holds rfl ?_
    unfold State.decide at decision
    (repeat' split at decision) <;> cases decision
    assumption
  · rename_i h adr decision
    refine holds rfl ?_
    unfold State.decide at decision
    (repeat' split at decision) <;> cases decision
    all_goals assumption
  · exact goes counted active rfl
  · refine goes ((State.raise_view ..).trans counted) ?_ rfl
    rw [State.raise_eq, State.noticed_engine]
    exact active

end
end State.KeepsMaps
end Sys2Proof.Machine
end

section
/-! PROOFS. An ASSIGN that is over, every final outcome and FAULT keep the maps in agreement (R95, R131 to R135). -/

namespace Sys2Proof.Machine

namespace State.KeepsMaps

/-! ### An ASSIGN that is over -/

section
variable {s : State} {g : Seg} {a : Activity} (ha : (s.engine g).activity = some a) {adr : Byte} (holds : a.work.holding = some adr)
include ha holds

/-- The JOIN_HOLD of an ASSIGN that is over goes with its contest (R135). -/
theorem releases {t : State} (view : t.view = s.view.put g adr .empty) : s.KeepsMaps (t.endContest g) := .mk fun sound => by
  obtain ⟨st, ended⟩ := t.endContest_view g
  rw [ended, view]
  exact sound.release (Core.idle_sound st) (fun _ => rfl) ((State.view_holding ha).trans holds) rfl

theorem applyJoin {h : Handle} (free : (s.entry h).isFree = true) (w : Ident) (c : Byte) : s.KeepsMaps (s.applyJoin g h w c adr) :=
  .mk fun sound => by
    obtain ⟨lies, aims⟩ := s.view_free free
    obtain ⟨st, ended⟩ := ((((s.setMap g adr (.held h)).change h ((s.entry h).filled .present w c g adr none)).raise .joined).updPass g
      fun x => { x with joined := x.joined + 1 }).endContest_view g
    rw [State.applyJoin, ended, State.updPass_view, State.raise_view, State.change_view, State.setMap_view]
    exact sound.join (Core.idle_sound st) (fun _ => rfl) ((State.view_holding ha).trans holds) rfl lies aims

theorem applyTransfer {h : Handle} (rests : (s.entry h).state.rests = true) (c : Byte) : s.KeepsMaps (s.applyTransfer g h c adr) :=
  .mk fun sound => by
    obtain ⟨lies, aims⟩ := s.view_rests rests
    obtain ⟨st, ended⟩ := (((((s.setMap (s.entry h).segment (s.entry h).address .empty).setMap g adr (.held h)).change h
      { s.entry h with segment := g, address := adr, state := .present, silence := 0, age := 0, cls := c }).raise .joined).updPass g
      fun x => { x with rejoined := x.rejoined + 1 }).endContest_view g
    rw [State.applyTransfer, ended, State.updPass_view, State.raise_view, State.change_view, State.setMap_view, State.setMap_view]
    exact sound.transfer (Core.idle_sound st) (fun _ => rfl) ((State.view_holding ha).trans holds) rfl lies aims

theorem parkAtReply (n : Notice) (w : Ident) : s.KeepsMaps (s.parkAtReply g a n w adr) := .mk fun sound => by
  obtain ⟨busy, out⟩ := sound.busy ha
  rw [State.parkAtReply, State.stepTo_view, State.raise_view, State.setMap_view, State.raise_eq, State.noticed_engine, State.setMap_engine]
  refine sound.release (Core.begun_sound busy _) (fun starting => ?_) ((State.view_holding ha).trans holds) rfl
  rw [out] at starting
  cases starting

theorem freshDecision (w : Ident) (c : Byte) : s.KeepsMaps (s.freshDecision g a w c adr) := by
  unfold State.freshDecision
  split
  · split
    · rename_i h found
      exact applyJoin ha holds (List.find?_some (p := fun h => (s.entry h).isFree) found) w c
    · exact parkAtReply ha holds ..
  · split
    case h_1 | h_2 => exact applyTransfer ha holds (by simp [*, EntryState.rests]) c
    case h_3 => exact parkAtReply ha holds ..

end

section
variable {s : State} {g : Seg} {a : Activity} (ha : (s.engine g).activity = some a)
include ha

/-- A contest that holds no JOIN_HOLD is counted and ends. -/
theorem counted {t : State} (free : a.work.holding = none) (k : s.KeepsMaps t) (engine : t.engine g = s.engine g)
    (f : PassRecord → PassRecord) : s.KeepsMaps ((t.updPass g f).endContest g) :=
  endsContest (k.trans (.same (State.updPass_view ..))) (a := a)
    (by rw [State.updPass_eq, State.updEngine_engine_same, engine]; exact ha) free

theorem applyRejoin (free : a.work.holding = none) (h : Handle) (w : Ident) (c adr : Byte) : s.KeepsMaps (s.applyRejoin g h w c adr) := by
  have lost : s.KeepsMaps ((s.updPass g PassRecord.countLost).endContest g) := counted ha free (.refl s) rfl _
  have silenced : (s.change h { s.entry h with silence := 0, cls := c }).view = s.view := by
    rw [State.change_view_same] <;> rfl
  have present (rests : (s.entry h).state.rests = true) :
      (s.change h { s.entry h with state := .present, silence := 0, age := 0, cls := c }).view = s.view := by
    rw [State.change_settle, View.settle_self s rests] <;> rfl
  have changed {e : Entry} (view : (s.change h e).view = s.view) (f : PassRecord → PassRecord) :
      s.KeepsMaps (((s.change h e).updPass g f).endContest g) := counted ha free (.same view) (State.change_engine ..) f
  unfold State.applyRejoin
  dsimp only
  split
  · split
    case h_1 | h_2 | h_3 =>
      exact changed (present (by simp [*, EntryState.rests])) _
    case h_4 | h_5 => exact changed silenced _
    case h_6 | h_7 => exact lost
  · exact lost

theorem assignOutcome {kind : JoinKind} {w : Ident} {c adr : Byte} (work : a.work = .assign kind w c adr) (o : LineOutcome) :
    s.KeepsMaps (s.assignOutcome g a kind w c adr o) := by
  unfold State.assignOutcome State.assignFailed
  cases kind with
  | rejoin h =>
    have free : a.work.holding = none := by rw [work]; rfl
    exact ite (fun _ => applyRejoin ha free ..) fun _ => counted ha free (.refl s) rfl _
  | newJoin | transfer =>
    have holds : a.work.holding = some adr := by rw [work]; rfl
    refine ite (fun _ => freshDecision ha holds w c) fun _ => releases ha holds ?_
    rw [State.updPass_view, State.setMap_view]

/-- Every final outcome of the activity in progress. -/
theorem finalOutcome (o : LineOutcome) : s.KeepsMaps (s.finalOutcome g a o) := by
  unfold State.finalOutcome
  cases work : a.work with
  | nodeRead | nodeWrite => exact concluded ha (by rw [work]; rfl) (.same (s.hostOutcome_view ..)) (.hostOutcome ..) _
  | broadcast => exact concluded ha (by rw [work]; rfl) (.refl s) (.refl s) _
  | poll h x sg adr => exact ends (.pollOutcome s g h x sg o) (((State.DirectoryOnly.pollOutcome ..).activity g).trans ha) (by rw [work]; rfl)
  | resolveRelease | releaseStray => exact steps (.refl s) ha (by rw [work]; rfl) rfl
  | resolvePresence h adr x =>
    exact ends (.same (s.resolutionOutcome_view ..)) (((State.DirectoryOnly.resolutionOutcome ..).activity g).trans ha) (by rw [work]; rfl)
  | move => exact moveOutcome ha (by rw [work]; rfl) ..
  | retire h adr force => exact concluded ha (by rw [work]; rfl) (.retireEffect s ..) (.retireEffect ..) _
  | unparkAll =>
    dsimp only
    unfold State.unparkOutcome
    split
    · refine ends (a := a) (.same (s.updEngine_view_same (fun _ => rfl) (fun _ => rfl) fun _ => rfl)) ?_ (by rw [work]; rfl)
      rw [State.updEngine_engine_same]
      exact ha
    · exact ends (.refl s) ha (by rw [work]; rfl)
  | callUnbound => exact contestLost ha (by rw [work]; rfl)
  | assign => exact assignOutcome ha work o
  | park w =>
    dsimp only
    unfold State.parkOutcome
    split
    · refine endsContest (a := a) (.same (s.updEngine_view_same (fun _ => rfl) (fun _ => rfl) fun _ => rfl)) ?_ (by rw [work]; rfl)
      rw [State.updEngine_engine_same]
      exact ha
    · exact counted ha (by rw [work]; rfl) (.refl s) rfl _

/-! ### FAULT -/

/-- What a stuck activity leaves, its JOIN_HOLD EMPTY (R95, R135). -/
theorem stuckEffect : s.KeepsMaps ((s.updEngine g Engine.cleared).stuckEffect g a.work) := by
  have cleared : (s.updEngine g Engine.cleared).view = s.view.run g (.idle (s.engine g).state) := s.updEngine_view ..
  have idle (free : a.work.holding = none) : s.KeepsMaps (s.updEngine g Engine.cleared) :=
    (State.KeepsMaps.refl s).idles ((State.view_holding ha).trans free) cleared
  have lost (free : a.work.holding = none) : s.KeepsMaps ((s.updEngine g Engine.cleared).updPass g PassRecord.countLost) :=
    (idle free).trans (.same (State.updPass_view ..))
  have freed {adr : Byte} (holds : a.work.holding = some adr) :
      s.KeepsMaps (((s.updEngine g Engine.cleared).setMap g adr .empty).updPass g PassRecord.countLost) := .mk fun sound => by
    rw [State.updPass_view, State.setMap_view, cleared]
    exact sound.release (Core.idle_sound _) (fun _ => rfl) ((State.view_holding ha).trans holds) rfl
  unfold State.stuckEffect
  cases work : a.work with
  | move | retire => exact (idle (by rw [work]; rfl)).trans (.returnEntry ..)
  | park | releaseStray => exact lost (by rw [work]; rfl)
  | assign kind w c adr =>
    cases kind with
    | rejoin h => exact lost (by rw [work]; rfl)
    | newJoin | transfer => exact freed (by rw [work]; rfl)
  | nodeRead | nodeWrite | broadcast | poll | resolveRelease | resolvePresence | unparkAll | callUnbound =>
    exact idle (by rw [work]; rfl)

theorem enterFault : s.KeepsMaps (s.enterFault g a) := by
  let t := (s.updEngine g Engine.cleared).stuckEffect g a.work
  have emptied : s.KeepsMaps (t.emptied g) :=
    ((stuckEffect ha).trans (.same (t.updEngine_view_same (g := g) (f := fun e => { e with queue := [] }) (fun _ => rfl) (fun _ => rfl)
      fun _ => rfl))).trans (.returnItems ..)
  have engine : ((t.emptied g).engine g).core = .idle (s.engine g).state := by
    rw [State.emptied_engine, if_pos rfl, State.stuckEffect_engine, if_pos rfl, State.updEngine_engine_same]
    rfl
  obtain ⟨l, flush⟩ := State.flush_answers (u := t.emptied g) (f := State.answerStuck a) g .segmentFault .fault (t.engine g).queue
    ⟨_, State.finishOwner_answering ..⟩
  rw [State.enterFault_answering ((State.flushQueue_eq ..).trans flush)]
  refine emptied.idles (g := g) (st := .fault) (congrArg Core.holding engine) ?_
  rw [State.updEngine_view, State.answering_view, State.answering_engine, State.noticed_engine, ← State.raise_eq, State.raise_view]
  refine congrArg _ ?_
  have faulted (e : Engine) : e.faulted.core = { e.core with state := .fault } := rfl
  rw [faulted, engine]
  rfl

end

/-! ### Attempts that end -/

/-- The attempt of an engine is over. -/
theorem clearLine (s : State) (g : Seg) {f : Line → Line} (done : ∀ l, (f l).attempt = none) : s.KeepsMaps (s.updLine g f) :=
  .mk fun sound => by
    have view : (s.updLine g f).view = s.view.run g { s.view.core g with attempt := none } := by
      rw [State.updLine_eq, State.updEngine_view]
      refine congrArg _ ?_
      unfold Engine.core
      dsimp only
      rw [done]
      rfl
    obtain ⟨⟨busy, -⟩, out⟩ := sound.2 g
    rw [view]
    exact sound.run ⟨busy, fun _ h => nomatch h⟩ out rfl

theorem attemptEnds (s : State) (g : Seg) (o : LineOutcome) : s.KeepsMaps (s.attemptEnds g o) := by
  unfold State.attemptEnds
  dsimp only
  refine (clearLine s g (f := fun l => { l with attempt := none }) fun _ => rfl).trans ?_
  split
  · exact .refl _
  · rename_i a ha
    exact ite (fun _ => enterFault ha) fun _ => ite (fun _ => retry ha) fun _ => finalOutcome ha o

end State.KeepsMaps
end Sys2Proof.Machine
end

section
/-! PROOFS. The events of the line keep maps and engines in agreement (R57 to R70). -/

namespace Sys2Proof.Machine

/-! ### Events of the line -/

theorem State.inPhase_some {s : State} {g : Seg} {phs : List AttemptPhase} (h : s.inPhase g phs = true) :
    ∃ t, s.attempt g = some t ∧ t.phase ∈ phs := by
  unfold State.inPhase at h
  split at h
  · exact ⟨_, ‹_›, by simpa using h⟩
  · cases h

/-- Only a CALL_UNBOUND sends its frame. -/
theorem Work.eq_callUnbound {w : Work} (h : w.frame.function = .callUnbound) : w = .callUnbound := by
  cases w with
  | callUnbound => rfl
  | move step => cases step <;> cases h
  | _ => cases h

/-- The activity whose frame an attempt sends. -/
theorem View.Sound.sender {s : State} {g : Seg} {t : Attempt} (sound : s.view.Sound) (ht : s.attempt g = some t) :
    ∃ a, (s.engine g).activity = some a ∧ t.frame = a.work.frame ∧ (t.phase = .slots ∨ t.phase = .classWait → a.work = .callUnbound) := by
  obtain ⟨⟨-, sends⟩, -⟩ := sound.2 g
  obtain ⟨w, hw, frame, phase⟩ := sends t ht
  have work : (s.engine g).activity.map Activity.work = some w := hw
  obtain ⟨a, ha, rfl⟩ := Option.map_eq_some_iff.1 work
  exact ⟨a, ha, frame, phase⟩

namespace State.KeepsMaps

theorem updLine (s : State) (g : Seg) {f : Line → Line} (attempt : ∀ l, (f l).attempt = l.attempt) : s.KeepsMaps (s.updLine g f) :=
  .same (s.updEngine_view_same (fun _ => rfl) (fun _ => rfl) fun e => attempt e.line)

/-- An attempt goes on with its frame, and to contest slots only with a CALL_UNBOUND. -/
theorem updAttempt {s : State} {g : Seg} {f : Attempt → Attempt} (frame : ∀ t, (f t).frame = t.frame)
    (slots : ∀ t, s.attempt g = some t → (f t).phase = .slots ∨ (f t).phase = .classWait →
      t.frame.function = .callUnbound ∨ t.phase = .slots) : s.KeepsMaps (s.updAttempt g f) := .mk fun sound => by
  have view : (s.updAttempt g f).view = s.view.run g { s.view.core g with attempt := (s.attempt g).map f } := s.updEngine_view ..
  obtain ⟨⟨busy, -⟩, out⟩ := sound.2 g
  rw [view]
  refine sound.run ⟨busy, fun t ht => ?_⟩ out rfl
  obtain ⟨t, before, rfl⟩ := Option.map_eq_some_iff.1 ht
  obtain ⟨a, ha, sends, calls⟩ := sound.sender before
  refine ⟨a.work, State.view_core ha, (frame t).trans sends, fun phase => ?_⟩
  obtain calling | asked := slots t before phase
  · exact Work.eq_callUnbound (sends ▸ calling)
  · exact calls (.inl asked)

theorem phaseTo (s : State) (g : Seg) {ph : AttemptPhase} (plain : ph ≠ .slots ∧ ph ≠ .classWait) : s.KeepsMaps (s.phaseTo g ph) :=
  updAttempt (fun _ => rfl) fun _ _ phase => (phase.elim plain.1 plain.2).elim

/-- The line is measured as its attempt ends. -/
theorem measuredEnd (s : State) (g : Seg) {f : Line → Line} (attempt : ∀ l, (f l).attempt = l.attempt) (o : LineOutcome) :
    s.KeepsMaps ((s.updLine g f).attemptEnds g o) := (updLine s g attempt).trans (.attemptEnds ..)

/-- A contest is over as its attempt is. -/
theorem contestOver {s : State} {g : Seg} {f : Line → Line} {t : Attempt} (done : ∀ l, (f l).attempt = none) (ht : s.attempt g = some t)
    (phase : t.phase = .slots ∨ t.phase = .classWait) {u : State}
    (next : ∀ a, ((s.updLine g f).engine g).activity = some a → a.work.holding = none → (s.updLine g f).KeepsMaps u) : s.KeepsMaps u :=
  .mk fun sound => by
    obtain ⟨a, ha, -, calls⟩ := sound.sender ht
    refine ((clearLine s g done).trans (next a ?_ (by rw [calls phase]; rfl))).sound sound
    rw [State.updLine_eq, State.updEngine_engine_same]
    exact ha

theorem idleGap (s : State) (g : Seg) (run : Nat) : s.KeepsMaps (s.idleGap g run) :=
  ite (fun _ => (updLine s g (by exact fun _ => rfl)).trans (.phaseTo _ g (ph := .address) (by simp))) fun _ => .refl s

theorem stuckLine (s : State) (g : Seg) (run : Nat) : s.KeepsMaps (s.stuckLine g run) :=
  ite (fun _ => .measuredEnd s g (by exact fun _ => rfl) _) fun _ => .refl s

theorem contend (s : State) (g : Seg) (k : Nat) : s.KeepsMaps (s.contend g k) := by
  unfold State.contend
  split
  · exact ite (fun _ => (updLine s g (by exact fun _ => rfl)).trans (.phaseTo _ g (ph := .ownBreak) (by simp))) fun _ => .refl s
  · exact .refl s

theorem releaseBreak (s : State) (g : Seg) (run : Nat) : s.KeepsMaps (s.releaseBreak g run) :=
  ite (fun _ => ite (fun _ => .measuredEnd s g (by exact fun _ => rfl) _) fun _ => .updLine s g (by exact fun _ => rfl)) fun _ => .refl s

theorem acknowledge (s : State) (g : Seg) (dominant : Bool) : s.KeepsMaps (s.acknowledge g dominant) := by
  unfold State.acknowledge
  split
  · exact ite (fun _ => ite (fun _ => .phaseTo s g (by simp)) fun _ => .attemptEnds ..) fun _ => .refl s
  · exact .refl s

theorem frameSent (s : State) (g : Seg) : s.KeepsMaps (s.frameSent g) := by
  unfold State.frameSent
  split
  · rename_i t ht
    refine ite (fun _ => ite (fun calls => ?_) fun _ => ite (fun _ => .phaseTo s g (by simp)) fun _ => .attemptEnds ..) fun _ => .refl s
    refine updAttempt (fun _ => rfl) fun t' ht' _ => .inl ?_
    rw [ht] at ht'
    cases ht'
    exact calls
  · exact .refl s

theorem replyTimeout (s : State) (g : Seg) (n : Nat) : s.KeepsMaps (s.replyTimeout g n) :=
  ite (fun _ => .attemptEnds ..) fun _ => .refl s

theorem gapTimeout (s : State) (g : Seg) (n : Nat) : s.KeepsMaps (s.gapTimeout g n) :=
  ite (fun _ => .attemptEnds ..) fun _ => .refl s

theorem replyChar (s : State) (g : Seg) (ch : LineChar) : s.KeepsMaps (s.replyChar g ch) := by
  unfold State.replyChar
  split
  · refine ite (fun _ => ite (fun _ => ?_) fun _ => updAttempt (fun _ => rfl) fun _ _ phase => by simp at phase) fun _ => .refl s
    split
    · exact updAttempt (fun _ => rfl) fun _ _ phase => by simp at phase
    · exact .attemptEnds ..
    · exact .attemptEnds ..
  · exact .refl s

theorem runEnds (s : State) (g : Seg) (run : Nat) : s.KeepsMaps (s.runEnds g run) :=
  ite (fun _ => .measuredEnd s g (by exact fun _ => rfl) _) fun _ => .refl s

theorem breakSeen (s : State) (g : Seg) (run : Nat) : s.KeepsMaps (s.breakSeen g run) := by
  unfold State.breakSeen
  refine ite (fun _ => ite (fun _ => .measuredEnd s g (by exact fun _ => rfl) _) fun _ => ite (fun waits => ?_) fun _ => .refl s) fun _ => .refl s
  obtain ⟨t, ht, phase⟩ := State.inPhase_some waits
  exact contestOver (by exact fun _ => rfl) ht (.inr (List.mem_singleton.1 phase)) fun a ha free => contestLost ha free

theorem slotsEnd (s : State) (g : Seg) (read : Ident) : s.KeepsMaps (s.slotsEnd g read) := by
  unfold State.slotsEnd
  split
  · rename_i slots
    obtain ⟨t, ht, phase⟩ := State.inPhase_some slots
    have asked : t.phase = .slots := List.mem_singleton.1 phase
    refine ite (fun _ => ?_) fun _ => ite (fun _ => ?_) fun _ => ?_
    · exact contestOver (by exact fun _ => rfl) ht (.inl asked) fun a ha free => noContender ha free
    · exact contestOver (by exact fun _ => rfl) ht (.inl asked) fun a ha free => contestLost ha free
    · refine updAttempt (fun _ => rfl) fun t' ht' _ => .inr ?_
      rw [ht] at ht'
      cases ht'
      exact asked
  · exact .refl s

theorem classChar (s : State) (g : Seg) (ch : LineChar) : s.KeepsMaps (s.classChar g ch) := by
  unfold State.classChar
  split
  · rename_i t act ht ha
    have same : ((s.clearAttempt g).engine g).activity = some act := by
      rw [State.clearAttempt, State.updLine_eq, State.updEngine_engine_same]
      exact ha
    refine ite (fun waits => ite (fun _ => ?_) fun _ => ?_) fun _ => .refl s
    · refine contestOver (f := fun l => { l with attempt := none }) (fun _ => rfl) ht (.inr waits.1) fun a ha' free => ?_
      cases ha'.symm.trans same
      exact contestWon same free ..
    · exact contestOver (by exact fun _ => rfl) ht (.inr waits.1) fun a ha' free => contestLost ha' free
  · exact .refl s

theorem classTimeout (s : State) (g : Seg) (n : Nat) : s.KeepsMaps (s.classTimeout g n) := by
  unfold State.classTimeout
  refine ite (fun waits => ?_) fun _ => .refl s
  obtain ⟨t, ht, phase⟩ := State.inPhase_some waits.2
  exact contestOver (by exact fun _ => rfl) ht (.inr (List.mem_singleton.1 phase)) fun a ha free => contestLost ha free

end State.KeepsMaps
end Sys2Proof.Machine
end

section
/-! PROOFS. Admission, dispatch and what is served at once keep the maps in agreement (R78, R146, R154, R170, R200). -/

namespace Sys2Proof.Machine

namespace State.KeepsMaps

/-! ### Admission -/

/-- A request admitted to its queue, its checks passed, changes its entry as its kind does (R146, R154). -/
theorem admissionChange {s u : State} {p : PortId} {g k : Seg} {q : LineReq} (entry : ∀ h, u.entry h = s.entry h)
    (slot : ∀ a, u.mapSlot g a = s.mapSlot g a) (ok : s.checkLine p q.atAdmission = .ok k)
    (here : ∀ h, q.named = some h → (s.entry h).state ≠ .free → (s.entry h).segment = g)
    (line : ∀ b t x, q = .move b t x → isAddress t = true) : u.KeepsMaps (u.admissionChange g q) := by
  cases q with
  | nodeRead | nodeWrite | broadcast | discover => exact .refl u
  | move b t x =>
    obtain ⟨h, hb, present, rfl, free⟩ := State.checkLine_move ok
    have onSegment : (s.entry h).segment = g := here h hb (by simp [present])
    have empty : u.mapSlot g t = .empty := by
      unfold State.moveTarget at free
      rw [slot, ← onSegment]
      split at free
      · cases free
      · split at free
        · assumption
        · cases free
    refine .mk fun sound => ?_
    have seated : (u.entry h).state = .present ∧ (u.entry h).segment = g := by rw [entry]; exact ⟨present, onSegment⟩
    obtain ⟨lies, aims⟩ := u.view_rests (h := h) (by rw [seated.1]; rfl)
    have reserved := sound.reserve (g := g) (a := t) lies aims empty (line b t x rfl)
    simp only [State.admissionChange, hb]
    rw [State.change_view, State.setMap_view]
    have moving : Entry.aims { u.entry h with state := .moving .present t } = some (g, t) :=
      Entry.aims_eq_some.2 ⟨seated.2, .present, rfl⟩
    rw [moving]
    exact reserved
  | retire b f x =>
    obtain ⟨h, hb, -, prior, state⟩ := State.checkLine_retire ok
    have held : (u.entry h).state = priorState prior := by rw [entry, state]
    refine .same ?_
    simp only [State.admissionChange, hb, held, priorOf_priorState]
    have dropped : (u.dropResolution g h).entry h = u.entry h := by rw [State.dropResolution_eq, State.updEngine_entry]
    rw [State.change_settle, dropped, State.dropResolution_view, View.settle_self]
    · rw [held]
      cases prior <;> rfl
    · rfl
    · rw [dropped]
    · rw [dropped]

/-- A waiting request meets a free place (R78). -/
theorem tryEnter {s : State} {p : PortId} {i : SlotIx} {g : Seg} {q : LineReq}
    (here : ∀ h, q.named = some h → (s.entry h).state ≠ .free → (s.entry h).segment = g)
    (line : ∀ b t x, q = .move b t x → isAddress t = true) : s.KeepsMaps (s.tryEnter p i g q).1 := by
  unfold State.tryEnter
  split
  · exact .same (s.finish_view ..)
  · rename_i k ok
    have queued (x : QueueItem) : (s.updEngine g fun e => { e with queue := e.queue ++ [x], lastServed := p }).view = s.view :=
      s.updEngine_view_same (fun _ => rfl) (fun _ => rfl) fun _ => rfl
    have entered : s.KeepsMaps ((s.updEngine g fun e => { e with queue := e.queue ++ [s.queueItem p i g q], lastServed := p }).updPort p
        (·.dispatchHead i)) := .same (by rw [State.updPort_eq, State.setPort_view, queued])
    exact entered.trans (admissionChange (by simp) (by simp) ok here line)

end State.KeepsMaps

/-- A MOVE's target in a request is a line address. -/
theorem bodyLine_target {k : ReqKind} {body : List Byte} {b t x : Byte} (suited : bodyLine k body = some (.move b t x)) :
    isAddress t = true := by
  unfold bodyLine at suited
  split at suited
  case h_5 =>
    obtain ⟨line, same⟩ := Option.ite_none_right_eq_some.1 suited
    cases same
    exact line
  all_goals simp at suited

theorem State.waitingFor_target {s : State} {g : Seg} {p : PortId} {i : SlotIx} {b t x : Byte}
    (waits : s.waitingFor g p = some (i, .move b t x)) : isAddress t = true := by
  unfold State.waitingFor at waits
  split at waits
  · split at waits
    · rename_i q' suited
      obtain ⟨-, same⟩ := Option.ite_none_right_eq_some.1 waits
      cases same
      exact bodyLine_target suited
    · cases waits
  · cases waits

namespace State.KeepsMaps

theorem arbitrate (s : State) (g : Seg) : s.KeepsMaps (s.arbitrate g) := by
  have enters {t : State} {p : PortId} {i : SlotIx} {q : LineReq} (waits : s.waitingFor g p = some (i, q)) (entry : ∀ h, t.entry h = s.entry h) :
      t.KeepsMaps (t.tryEnter p i g q).1 :=
    tryEnter (fun h named held => by
      rw [entry] at held ⊢
      exact State.waitingFor_segment waits named held) fun b target x e => State.waitingFor_target (e ▸ waits)
  unfold State.arbitrate
  dsimp only
  split
  · rename_i hi _
    exact enters hi fun _ => rfl
  · rename_i hi
    exact enters hi fun _ => rfl
  · rename_i i q j r hi hj
    refine ite (fun _ => enters hi fun _ => rfl) fun refused => (enters hi fun _ => rfl).trans (enters hj ?_)
    unfold State.tryEnter at refused ⊢
    split at refused
    · simp
    · simp at refused
  · exact .refl s

theorem admitDispatched (s : State) (p : PortId) (g : Seg) : s.KeepsMaps (s.admitDispatched p g) :=
  ite (fun _ => (arbitrate s g).trans (.arbitrate ..)) fun _ => .arbitrate ..

/-! ### Dispatch -/

theorem dispatch {s : State} (p : PortId) (k : ReqKind) {f : SlotIx → Request → State} (hf : ∀ i r, s.KeepsMaps (f i r)) :
    s.KeepsMaps (s.dispatch p k f) := by
  unfold State.dispatch
  split
  · exact ite (fun _ => hf ..) fun _ => .refl s
  · exact .refl s

theorem dispatchLine (s : State) (p : PortId) (k : ReqKind) : s.KeepsMaps (s.dispatchLine p k) := by
  refine dispatch p k fun i r => ?_
  split
  · exact .same (s.finish_view ..)
  · split
    · exact .same (s.finish_view ..)
    · rename_i g _
      have awaits : s.KeepsMaps (s.updPort p fun x => { x with waitsFor := some g }) :=
        .same (State.updPort_view ..)
      exact ite (fun _ => awaits.trans (.admitDispatched ..)) fun _ => awaits

theorem serve {s : State} (p : PortId) (k : ReqKind) {f : State → PortId → List Byte → State × Answer}
    (hf : ∀ body, s.KeepsMaps (f s p body).1) : s.KeepsMaps (s.serve p k f) :=
  dispatch p k fun _ r => (hf r.body).trans (.same (State.finish_view ..))

section
variable (s : State) (p : PortId) (body : List Byte)

theorem lookup {β : Type} (parse : List Byte → Option β) (f : State → PortId → β → Answer) : s.KeepsMaps (lookup parse f s p body).1 := by
  unfold Machine.lookup
  split <;> exact refl s

theorem serveSetLabel : s.KeepsMaps (serveSetLabel s p body).1 := by
  unfold Machine.serveSetLabel
  split
  · exact refl s
  · split
    · exact refl s
    · exact same (s.change_view_same rfl rfl rfl)

theorem serveSetStride : s.KeepsMaps (serveSetStride s p body).1 := by
  unfold Machine.serveSetStride
  split
  · exact refl s
  · split
    · exact refl s
    · exact same (s.change_view_same rfl rfl rfl)

theorem serveClaim (c : Option PortId) : s.KeepsMaps (serveClaim c s p body).1 := by
  unfold Machine.serveClaim
  split
  · exact refl s
  · split
    · exact refl s
    · split
      · exact refl s
      · exact same (s.setEntry_view_same rfl rfl rfl)

theorem serveWatch (on : Bool) : s.KeepsMaps (serveWatch on s p body).1 := by
  unfold Machine.serveWatch
  split
  · exact refl s
  · split
    · exact refl s
    · rename_i h _
      have watched : s.KeepsMaps (s.setEntry h ((s.entry h).setWatch p on)) := by
        refine same (s.setEntry_view_same ?_ ?_ ?_) <;> cases p <;> rfl
      exact watched.trans (ite (fun _ => .refl _) fun _ => same (State.updPort_view ..))

/-- A SEED fills a FREE entry at an EMPTY address (R200). -/
theorem serveSeed : s.KeepsMaps (serveSeed s p body).1 := by
  unfold Machine.serveSeed
  split
  · exact refl s
  · rename_i q suited
    split
    · exact refl s
    · rename_i h ok
      obtain ⟨-, empty, -, found⟩ := State.checkSeed_ok ok
      obtain ⟨lies, aims⟩ := s.view_free (List.find?_some (p := fun h => (s.entry h).isFree) found)
      have line : isAddress q.address = true := by
        unfold bodySeed at suited
        split at suited
        · split at suited
          · dsimp only at suited
            split at suited
            · rename_i valid
              cases suited
              exact (Bool.and_eq_true_iff.1 valid).2
            · cases suited
          · cases suited
        · cases suited
      refine .mk fun sound => ?_
      dsimp only
      rw [State.change_view, State.setMap_view]
      exact sound.take lies aims empty line

/-- A change of the run state out of STARTING, and of the window. -/
theorem runs {s : State} {r : RunState} {w : Bool} (left : r.isSettling = s.runState.isSettling)
    (starting : r.isStarting = s.runState.isStarting) : s.KeepsMaps { s with runState := r, seeding := w } := by
  refine same ?_
  unfold State.view
  dsimp only
  rw [left, starting]
  rfl

theorem serveSeedEnd : s.KeepsMaps (serveSeedEnd s p body).1 := by
  unfold Machine.serveSeedEnd
  split
  · exact refl s
  · split
    · exact runs (r := s.runState) (w := false) rfl rfl
    · exact refl s

theorem serveQuiet : s.KeepsMaps (serveQuiet s p body).1 := by
  unfold Machine.serveQuiet
  split
  · exact refl s
  · split
    · rename_i running
      exact runs (r := .quieting) (w := s.seeding) (by rw [running.1]; rfl) (by rw [running.1]; rfl)
    · exact refl s

theorem serveClearNotices : s.KeepsMaps (serveClearNotices s p body).1 := by
  unfold Machine.serveClearNotices
  split
  · exact refl s
  · exact same (State.updPort_view ..)

theorem serveSetNoticeMask : s.KeepsMaps (serveSetNoticeMask s p body).1 := by
  unfold Machine.serveSetNoticeMask
  split
  · exact refl s
  · exact same (State.updPort_view ..)

theorem serveGetChanges : s.KeepsMaps (serveGetChanges s p body).1 := by
  unfold Machine.serveGetChanges
  split
  · exact refl s
  · dsimp only
    exact same (State.updPort_view ..)

theorem serveGetSegment : s.KeepsMaps (serveGetSegment s p body).1 := by
  unfold Machine.serveGetSegment
  split <;> exact refl s

end
end State.KeepsMaps
end Sys2Proof.Machine
end

section
/-! PROOFS. The settings, the switch-off and the pick keep the maps in agreement (R74, R80, R91). -/

namespace Sys2Proof.Machine

/-! ### Settings -/

namespace State.KeepsMaps

/-- An engine without work changes its state. -/
theorem restate {s t : State} {g : Seg} (k : s.KeepsMaps t)
    (still : (t.view.core g).state ≠ .transaction ∧ (t.view.core g).state ≠ .contest) {f : Engine → Engine} {st : EngineState}
    (core : (f (t.engine g)).core = { (t.engine g).core with state := st }) : s.KeepsMaps (t.updEngine g f) := .mk fun sound => by
  obtain ⟨⟨idle, sends⟩, out⟩ := (k.sound sound).2 g
  rw [State.updEngine_view, core]
  exact (k.sound sound).run ⟨fun _ _ => idle still.1 still.2, sends⟩ out rfl

end State.KeepsMaps

theorem State.lowerThreshold_view (s : State) (g : Seg) (T : Nat) : (s.lowerThreshold g T).view = s.view := by
  have one (u : State) (h : Handle) : (u.lowerEntry g T h).view = u.view := by
    unfold State.lowerEntry
    dsimp only
    split
    · rename_i low
      rw [State.change_settle, View.settle_self]
      · rcases low.2.1 with e | e <;> rw [e] <;> rfl
      all_goals rfl
    · rfl
  have all (l : List Handle) : ∀ u : State, (l.foldl (State.lowerEntry g T) u).view = u.view := by
    induction l with
    | nil => exact fun _ => rfl
    | cons h l ih => exact fun u => (ih _).trans (one u h)
  unfold State.lowerThreshold
  dsimp only
  split
  · rw [State.raise_view, all]
  · exact all ..

theorem State.settingsWritten_view (s : State) (g : Seg) (x : Settings) : (s.settingsWritten g x).view = s.view := by
  have written : (s.updEngine g (·.write x)).view = s.view := s.updEngine_view_same (fun _ => rfl) (fun _ => rfl) fun _ => rfl
  unfold State.settingsWritten
  split
  · rw [State.lowerThreshold_view, written]
  · exact written

theorem State.KeepsMaps.switchOff (s : State) (g : Seg) : s.KeepsMaps (s.switchOff g) := by
  obtain ⟨l, flush⟩ := State.flush_answers (u := s.emptied g) (f := id) g .segmentOff .off (s.engine g).queue ⟨[], rfl⟩
  have emptied : s.KeepsMaps (s.emptied g) :=
    (State.KeepsMaps.same (s.updEngine_view_same (g := g) (f := fun e => { e with queue := [] }) (fun _ => rfl) (fun _ => rfl)
      fun _ => rfl)).trans (.returnItems ..)
  have view : ((s.flushQueue g .segmentOff .off id).updEngine g fun e => { e with pollDue := false }).view = (s.emptied g).view := by
    rw [State.updEngine_view_same, State.flushQueue_eq, flush, State.answering_view] <;> exact fun _ => rfl
  have idled := emptied.trans (.same view)
  have core : ((s.emptied g).view.core g).state = (s.engine g).state := by
    change ((s.emptied g).engine g).state = _
    rw [State.emptied_engine, if_pos rfl]
  unfold State.switchOff
  dsimp only
  cases state : (s.engine g).state with
  | idle | fault =>
    refine restate (idled.trans (.same (State.endPass_view ..))) ?_ (st := .off) rfl
    rw [State.endPass_view, view, core, state]
    exact ⟨(fun h => nomatch h), fun h => nomatch h⟩
  | transaction | contest => exact idled.trans (.same (State.updEngine_view_same _ (fun _ => rfl) (fun _ => rfl) fun _ => rfl))
  | off => exact idled

theorem State.KeepsMaps.serveSetSegment (s : State) (p : PortId) (body : List Byte) : s.KeepsMaps (serveSetSegment s p body).1 := by
  unfold Machine.serveSetSegment
  split
  · exact .refl s
  · rename_i g x _
    have written : s.KeepsMaps (s.settingsWritten g x) := .same (s.settingsWritten_view g x)
    split
    · exact .refl s
    · dsimp only
      rw [State.applySettings_eq]
      refine .ite (fun _ => .ite (fun off => ?_) fun _ => written) fun _ => .ite (fun _ => written.trans (.switchOff ..)) fun _ => written
      refine restate written ?_ (st := .idle) rfl
      rw [State.settingsWritten_view]
      have core : (s.view.core g).state = .off := off
      rw [core]
      exact ⟨(fun h => nomatch h), fun h => nomatch h⟩

/-! ### The pick -/

/-- Engine `g` is IDLE, and the part out of STARTING. -/
def View.Ready (v : View) (g : Seg) : Prop := (v.core g).state = .idle ∧ v.starting = false

/-- A request's work holds no JOIN_HOLD. -/
theorem LineReq.work_holding (q : LineReq) (h : Handle) (e : Entry) : (q.work h e).holding = none := by cases q <;> rfl

namespace State.KeepsMaps

/-- An engine that picks begins work that holds no JOIN_HOLD. -/
theorem begins {s t : State} {g : Seg} (view : t.view = s.view) (ready : s.view.Ready g) {st : EngineState}
    (busy : st = .transaction ∨ st = .contest) {w : Work} (none : w.holding = none) (o : Option Owner) : s.KeepsMaps (t.begin g st w o) :=
  .mk fun sound => by
    obtain ⟨idle, out⟩ := ready
    obtain ⟨⟨rests, -⟩, -⟩ := sound.2 g
    have free : (s.view.core g).work = .none := rests (by simp [idle]) (by simp [idle])
    rw [State.begin_view, view]
    refine sound.run (Core.begun_sound busy w) (fun starting => ?_) ?_
    · rw [out] at starting
      cases starting
    · unfold Core.holding
      rw [free]
      exact none

theorem record_view (s : State) (g : Seg) (took : Bool) : (s.record g took).view = s.view :=
  s.updEngine_view_same (fun _ => rfl) (fun _ => rfl) fun _ => rfl

theorem pickContest {s : State} {g : Seg} (ready : s.view.Ready g) : s.KeepsMaps (s.pickContest g) := by
  have marked : ((s.record g false).updEngine g fun e => { e with discoveryDue := false }).view = s.view := by
    rw [State.updEngine_view_same, record_view] <;> exact fun _ => rfl
  have passed : (((s.record g false).updEngine g fun e => { e with discoveryDue := false }).startPass g []).view = s.view := by
    rw [State.startPass, State.updPass_view, marked]
  unfold State.pickContest
  exact ite (fun _ => begins marked ready (.inr rfl) rfl none) fun _ =>
    ite (fun _ => begins passed ready (.inl rfl) rfl none) fun _ => begins passed ready (.inr rfl) rfl none

theorem takeHead_view (s : State) (g : Seg) (x : QueueItem) : (s.takeHead g x).view = s.view := by
  rw [State.takeHead, State.updPort_eq, State.setPort_view, State.updEngine_view_same] <;> exact fun _ => rfl

theorem pickDiscover {s : State} {g : Seg} (ready : s.view.Ready g) (x : QueueItem) : s.KeepsMaps (s.pickDiscover g x) := by
  have taken : ((s.takeHead g x).record g true).view = s.view := by rw [record_view, takeHead_view]
  have passed : (((s.takeHead g x).record g true).startPass g [(x.port, x.slot)]).view = s.view := by
    rw [State.startPass, State.updPass_view, taken]
  unfold State.pickDiscover
  refine ite (fun _ => ite (fun _ => ?_) fun _ => ite (fun _ => begins passed ready (.inl rfl) rfl none) fun _ => same passed) fun _ => ?_
  · exact same (by rw [State.updPass_view, taken])
  · exact same (by rw [State.finish_view, taken])

theorem pickQueue {s : State} {g : Seg} (ready : s.view.Ready g) (x : QueueItem) : s.KeepsMaps (s.pickQueue g x) := by
  have taken : ((s.takeHead g x).record g true).view = s.view := by rw [record_view, takeHead_view]
  unfold State.pickQueue
  split
  · exact pickDiscover ready x
  · exact begins taken ready (.inl rfl) rfl _
  · refine ite (fun _ => same ?_) fun _ => begins taken ready (.inl rfl) (LineReq.work_holding ..) _
    rw [State.finish_view, takeHead_view]
  · exact refl s

theorem pickRest {s : State} {g : Seg} (ready : s.view.Ready g) : s.KeepsMaps (s.pickRest g) := by
  unfold State.pickRest
  refine ite (fun _ => pickContest ready) fun _ => ?_
  split
  · exact pickQueue ready _
  · exact pickQueue ready _
  all_goals exact same (record_view ..)

theorem pollScan_view (s : State) (g : Seg) (l : List Handle) : (s.pollScan g l).1.view = s.view := by
  induction l generalizing s with
  | nil => rfl
  | cons h l ih =>
    unfold State.pollScan
    dsimp only
    split
    · split
      · rw [ih, State.appendResolution_view]
      case h_2 | h_3 | h_4 =>
        split
        · rfl
        · split
          · exact s.setEntry_view_same rfl rfl rfl
          · rw [ih]
            exact s.setEntry_view_same rfl rfl rfl
      all_goals exact ih s
    · exact ih s

theorem pickPoll {s : State} {g : Seg} (ready : s.view.Ready g) : s.KeepsMaps (s.pickPoll g) := by
  have turn : (s.pollTurn g).1.view = s.view := by
    rw [State.pollTurn, pollScan_view, State.updEngine_view_same] <;> exact fun _ => rfl
  unfold State.pickPoll
  refine ite (fun _ => ?_) fun _ => pickRest ready
  split
  · rename_i t h polled
    rw [polled] at turn
    refine begins ?_ ready (.inl rfl) rfl none
    rw [State.updEngine_view_same, record_view, turn] <;> exact fun _ => rfl
  · rename_i t polled
    rw [polled] at turn
    exact (same turn).trans (pickRest (by rw [turn]; exact ready))

theorem pickWork {s : State} {g : Seg} (ready : s.view.Ready g) : s.KeepsMaps (s.pickWork g) := by
  have readied : (s.readied g).view = s.view := by
    unfold State.readied
    rw [show s.passOver g .ok 3 = s.endPass g .quiet from (State.endPass_eq s g .quiet).symm]
    split
    · rfl
    · exact s.endPass_view g _
  have ready' : (s.readied g).view.Ready g := by rw [readied]; exact ready
  rw [State.pickWork_eq]
  refine (same readied).trans ?_
  split
  · exact ite (fun _ => pickPoll ready') fun _ => begins (record_view ..) ready' (.inl rfl) rfl none
  · exact pickPoll ready'

end State.KeepsMaps
end Sys2Proof.Machine
end

section
/-! PROOFS. Exchanges, restarts and the timer keep the maps in agreement (R27, R97, R175, R189, R192, R195, R197). -/

namespace Sys2Proof.Machine

/-! ### Exchanges -/

theorem Entry.dropPort_places (e : Entry) (p : PortId) : (e.dropPort p).lies = e.lies ∧ (e.dropPort p).aims = e.aims := by
  cases p <;> exact ⟨rfl, rfl⟩

theorem Engine.dropPort_core (e : Engine) (p : PortId) : (e.dropPort p).core = e.core := by
  have work (a : Activity) : (a.orphan p).work = a.work := by
    unfold Activity.orphan
    split
    · split <;> rfl
    · rfl
  unfold Engine.core Engine.dropPort
  dsimp only
  rw [Option.map_map]
  refine congrArg (fun w => ({ state := e.state, work := w, attempt := e.line.attempt } : Core)) ?_
  exact congrArg (fun f => e.activity.map f) (funext work)

theorem State.portDropped_view (s : State) (p : PortId) : (s.portDropped p).view = s.view := by
  have slots : (s.portDropped p).mapSlot = s.mapSlot := rfl
  unfold State.view
  simp only [State.portDropped_entry, State.portDropped_engine, slots, Entry.dropPort_places, Engine.dropPort_core]
  rfl

namespace State.KeepsMaps

theorem portReset (s : State) (p : PortId) : s.KeepsMaps (s.portReset p) :=
  ((same (s.portDropped_view p)).trans (.returnItems _ (allSegments.flatMap (s.queuedOf p)))).trans
    (same (State.updPort_view ..))

theorem takeFrame (s : State) (p : PortId) (f : TakenFrame) : s.KeepsMaps (s.takeFrame p f).1 := by
  have woken : s.KeepsMaps (if f.kind = .wake then s.wake else s) := ite (fun _ => same s.wake_view) fun _ => .refl s
  unfold State.takeFrame
  split
  · exact .refl s
  · split
    · exact .portReset ..
    · dsimp only
      split
      · exact woken
      · exact woken.trans (same (State.updPort_view ..))

theorem endExchange (s : State) (p : PortId) (x : Exchange) (sent : List Bool) : s.KeepsMaps (s.endExchange p x sent) := by
  have delivered : s.KeepsMaps (s.deliver p x sent.length) :=
    ite (fun _ => .refl s) fun _ => same (State.updPort_view ..)
  have judged (t : State) : t.KeepsMaps (t.judge p sent).1 := by
    unfold State.judge
    split
    · exact .refl t
    · exact .refl t
    · exact .takeFrame ..
  exact (delivered.trans (judged _)).trans (same (State.updPort_view ..))

/-! ### Restarts -/

/-- The clearing leaves no entry a place, every map EMPTY and every engine idle (R192). -/
theorem clearing (s : State) : s.KeepsMaps s.clearing := .mk fun _ => by
  have lies (h : Handle) : s.clearing.view.lies h = none := by
    change (s.clearing.entry h).lies = none
    rw [State.clearing_entry]
    rfl
  have aims (h : Handle) : s.clearing.view.aims h = none := by
    change (s.clearing.entry h).aims = none
    rw [State.clearing_entry]
    rfl
  have slot (g : Seg) (a : Byte) : s.clearing.view.slot g a = .empty := by
    change s.clearing.mapSlot g a = .empty
    unfold State.mapSlot State.clearing
    split <;> simp
  have core (g : Seg) : s.clearing.view.core g = .idle .off := by
    change (s.clearing.engine g).core = _
    rw [State.clearing_engine]
    rfl
  refine ⟨⟨fun h g a e => ?_, fun h g a e => ?_, fun g a h _ => ?_, fun g a h _ => ?_, fun g a _ e => ?_, fun g a e => ?_⟩, fun g => ?_⟩
  · rw [lies] at e
    cases e
  · rw [aims] at e
    cases e
  · rw [lies, slot]
    simp
  · rw [aims, slot]
    simp
  · rw [slot] at e
    cases e
  · rw [core] at e
    cases e
  · rw [core]
    exact ⟨Core.idle_sound _, fun _ => rfl⟩

/-- A RESET abandons every activity and leaves its JOIN_HOLD standing (R189, R190). -/
theorem takeReset (s : State) : s.KeepsMaps s.takeReset := .mk fun sound => by
  obtain ⟨address, target, held, reserved, -, -⟩ := sound.1
  have core (g : Seg) : s.takeReset.view.core g = .idle .off := by
    change (s.takeReset.engine g).core = _
    rw [State.takeReset_engine]
    rfl
  refine ⟨⟨address, target, held, reserved, fun g a _ _ => .inl rfl, fun g a e => ?_⟩, fun g => ?_⟩
  · rw [core] at e
    cases e
  · rw [core]
    exact ⟨Core.idle_sound _, fun _ => rfl⟩

theorem resetPulse (s : State) (width : Nat) : s.KeepsMaps (s.resetPulse width) := by
  have drawn : s.KeepsMaps { s with freeCount := s.freeCount + 1 } := same rfl
  unfold State.resetPulse
  exact ite (fun _ => .refl s) fun _ => ite (fun _ => .takeReset s) fun _ => ite (fun _ => drawn.trans (.takeReset _)) fun _ => drawn

theorem releaseReset (s : State) : s.KeepsMaps s.releaseReset := by
  unfold State.releaseReset
  split
  · rename_i b state
    exact runs (r := .starting (.settling true)) (w := s.seeding) (by rw [state]; rfl) (by rw [state]; rfl)
  all_goals exact .refl s

theorem settled (s : State) (cycles : Nat) : s.KeepsMaps (s.settled cycles) := by
  have started : s.KeepsMaps { s with prescaler := .start } := same rfl
  exact ite (fun _ => started.trans (.clearing _)) fun _ => .refl s

/-- The event that enters RUN finds no engine at work (R195). -/
theorem runBase {s : State} (x : Setup) (loading : s.runState = .starting .loading) : s.KeepsMaps (s.runBase x) := .mk fun sound => by
  obtain ⟨agree, engines⟩ := sound
  have starting : s.view.starting = true := by
    change s.runState.isStarting = true
    rw [loading]
    rfl
  have core (g : Seg) : ∃ st, (s.runBase x).view.core g = { s.view.core g with state := st } := by
    refine ⟨((s.engine g).started x.segments[g]).state, ?_⟩
    change ((s.runBase x).engine g).core = _
    rw [State.runBase_engine]
    rfl
  have holding : (fun g => ((s.runBase x).view.core g).holding) = fun g => (s.view.core g).holding := by
    funext g
    obtain ⟨st, e⟩ := core g
    rw [e]
    rfl
  have left : s.view.left = (s.runBase x).view.left := by
    change s.runState.isSettling = false
    rw [loading]
    rfl
  refine ⟨?_, fun g => ?_⟩
  · rw [holding, ← left]
    exact agree
  · obtain ⟨st, e⟩ := core g
    obtain ⟨⟨-, sends⟩, out⟩ := engines g
    rw [e]
    exact ⟨⟨fun _ _ => out starting, sends⟩, fun h => nomatch h⟩

theorem readEnds (s : State) (line : List Bool) : s.KeepsMaps (s.readEnds line) := by
  unfold State.readEnds
  split
  · rename_i image _
    by_cases loading : s.runState = .starting .loading
    · have based := runBase (setupOf image) loading
      rw [State.enterRun_eq s image loading]
      exact ite (fun _ => based.trans (same (State.raise_view ..))) fun _ =>
        (based.trans (same (State.raise_view ..))).trans (same (State.raise_view ..))
    · rw [State.enterRun, if_neg loading]
      exact .refl s
  · exact .refl s

theorem retainEntries_flags (l : List Handle) (s : State) :
    (l.foldl State.retainEntry s).view.left = s.view.left ∧ (l.foldl State.retainEntry s).view.starting = s.view.starting := by
  induction l generalizing s with
  | nil => exact ⟨rfl, rfl⟩
  | cons h l ih =>
    obtain ⟨left, starting⟩ := ih (s.retainEntry h)
    have one : (s.retainEntry h).view = _ := s.change_view h _
    rw [one] at left starting
    exact ⟨left, starting⟩

/-- A retain restart keeps HELD slots alone, and ends every MOVE and every activity (R27, R99). -/
theorem retainRestart (s : State) : s.KeepsMaps s.retainRestart := .mk fun sound => by
  obtain ⟨address, target, held, reserved, -, -⟩ := sound.1
  have lies (h : Handle) : s.retainRestart.view.lies h = s.view.lies h := by
    change (s.retainRestart.entry h).lies = (s.entry h).lies
    rw [State.retainRestart_entry]
    unfold Entry.lies Entry.isFree Entry.kept
    cases state : (s.entry h).state <;> simp [state]
  have aims (h : Handle) : s.retainRestart.view.aims h = none := by
    change (s.retainRestart.entry h).aims = none
    rw [State.retainRestart_entry]
    unfold Entry.aims Entry.kept
    cases state : (s.entry h).state <;> simp [state]
  have slot (g : Seg) (a : Byte) : s.retainRestart.view.slot g a = match s.view.slot g a with | .held h => .held h | _ => .empty :=
    s.retainRestart_mapSlot g a
  have core (g : Seg) : s.retainRestart.view.core g = .idle (s.engine g).stateRetained := by
    change (s.retainRestart.engine g).core = _
    rw [State.retainRestart_engine]
    have cut : (s.engine g).line.cutOff.attempt = none := by
      unfold Line.cutOff
      split
      · split <;> rfl
      · assumption
    unfold Engine.core Engine.retained
    dsimp only
    split
    · exact congrArg (fun a => ({ state := (s.engine g).stateRetained, work := none, attempt := a } : Core)) cut
    · exact congrArg (fun a => ({ state := (s.engine g).stateRetained, work := none, attempt := a } : Core)) cut
  refine ⟨⟨fun h g a e => address h g a (lies h ▸ e), fun h g a e => ?_, fun g a h line => ?_, fun g a h line => ?_, fun g a _ e => ?_,
    fun g a e => ?_⟩, fun g => ?_⟩
  · rw [aims] at e
    cases e
  · rw [lies, slot, ← held g a h line]
    cases s.view.slot g a <;> simp
  · rw [aims, slot]
    cases s.view.slot g a <;> simp
  · rw [slot] at e
    cases hs : s.view.slot g a <;> rw [hs] at e <;> cases e
  · rw [core] at e
    cases e
  · rw [core]
    exact ⟨Core.idle_sound _, fun _ => rfl⟩

theorem drain (s : State) : s.KeepsMaps s.drain :=
  ite (fun quieting => runs (r := .quiet) (w := s.seeding) (by rw [quieting.1]; rfl) (by rw [quieting.1]; rfl)) fun _ => .refl s

theorem dispatchRestart (s : State) (p : PortId) (k : RestartKind) {f : State → State} (hf : s.KeepsMaps (f s)) :
    s.KeepsMaps (s.dispatchRestart p k f) := by
  refine dispatch p _ fun i r => ?_
  split
  · exact same (s.finish_view ..)
  · exact ite (fun _ => hf) fun _ => .refl s

theorem dispatchWake (s : State) (p : PortId) : s.KeepsMaps (s.dispatchWake p) := by
  refine dispatch p _ fun i r => ?_
  split
  · exact same (s.finish_view ..)
  · exact same (by rw [State.finish_view, State.wake_view])

/-! ### The poll timer and the reference clock -/

theorem timerExpires (s : State) (g : Seg) (count : PollCount) : s.KeepsMaps (s.timerExpires g count) := by
  have measured : s.KeepsMaps (s.updLine g (·.measured count.run)) := updLine s g fun l => by
    unfold Line.measured
    split <;> rfl
  have recovered (t : State) : t.KeepsMaps (t.recover g) := by
    unfold State.recover
    refine ite (fun fault => trans ?_ (same (State.raise_view ..))) fun _ => .refl t
    refine restate (.refl t) ?_ (st := if (t.engine g).settings.on then .idle else .off) rfl
    have core : (t.view.core g).state = .fault := fault.1
    rw [core]
    exact ⟨(fun h => nomatch h), fun h => nomatch h⟩
  have expired (t : State) : (t.expire g).view = t.view := by
    have due : (t.updEngine g fun e => { e with pollDue := true }).view = t.view :=
      t.updEngine_view_same (fun _ => rfl) (fun _ => rfl) fun _ => rfl
    unfold State.expire
    split
    case h_1 | h_2 | h_3 =>
      dsimp only
      split
      · rfl
      · split
        · rw [State.updEngine_view_same, due] <;> exact fun e => by rw [e.countExpiry_eq]
        · exact due
    all_goals rfl
  unfold State.timerExpires
  exact ite (fun _ => ((measured.trans (recovered _)).trans (same (expired _))).trans
    (same (State.updEngine_view_same _ (fun _ => rfl) (fun _ => rfl) fun _ => rfl))) fun _ => .refl s

theorem cycle (s : State) : s.KeepsMaps s.cycle := by
  have entry (h : Handle) : s.cycle.entry h = s.entry h := by simp [State.entry]
  have slot : s.cycle.mapSlot = s.mapSlot := by
    funext g a
    simp [State.mapSlot]
  have core (g : Seg) : (s.cycle.engine g).core = (s.engine g).core := by
    have attempt := s.cycle_attempt g
    unfold Engine.core
    rw [attempt, State.cycle_engine]
  refine same ?_
  unfold State.view
  simp only [entry, slot, core, State.cycle_runState]

end State.KeepsMaps
end Sys2Proof.Machine
end

section
/-! PROOFS. Every command keeps address maps and engines in agreement (R15, R17, R70, R72). -/

namespace Sys2Proof.Machine

/-! ### Every command and the address maps -/

/-- Every command keeps places, maps and engines in agreement. -/
theorem exec_keepsMaps {c : Instr} {s t : State} (h : exec c s = .next t) : s.KeepsMaps t := by
  have served {u : State} (k : s.KeepsMaps u) (next : (Host.Outcome.next u : Host.Outcome State Fault Refusal) = .next t) :
      s.KeepsMaps t := by
    cases next
    exact k
  cases c with
  | exchangeStart p =>
    refine served ?_ h
    split
    · exact .same (State.updPort_view ..)
    · exact .refl s
  | exchangeEnd p sent =>
    refine served ?_ h
    split
    · exact .endExchange ..
    · exact .refl s
  | describe p | getNotices p | findId p | findAddr p | list p | readEntry p =>
    exact served (.serve p _ fun body => .lookup s p body _ _) h
  | clearNotices p => exact served (.serve p _ (.serveClearNotices s p)) h
  | setNoticeMask p => exact served (.serve p _ (.serveSetNoticeMask s p)) h
  | getChanges p => exact served (.serve p _ (.serveGetChanges s p)) h
  | restartFull p => exact served (.dispatchRestart _ _ _ (.clearing s)) h
  | restartRetain p => exact served (.dispatchRestart _ _ _ (.retainRestart s)) h
  | quiet p => exact served (.serve p _ (.serveQuiet s p)) h
  | wake p => exact served (.dispatchWake s p) h
  | seed p => exact served (.serve p _ (.serveSeed s p)) h
  | seedEnd p => exact served (.serve p _ (.serveSeedEnd s p)) h
  | setLabel p => exact served (.serve p _ (.serveSetLabel s p)) h
  | setStride p => exact served (.serve p _ (.serveSetStride s p)) h
  | claim p | unclaim p => exact served (.serve p _ fun body => .serveClaim s p body _) h
  | watch p | unwatch p => exact served (.serve p _ fun body => .serveWatch s p body _) h
  | setSegment p =>
    exact served (.serve p _ (.serveSetSegment s p)) h
  | getSegment p => exact served (.serve p _ (.serveGetSegment s p)) h
  | nodeRead p | nodeWrite p | broadcast p | discover p | move p | retire p => exact served (.dispatchLine ..) h
  | intakeAdmission g => exact served (.ite (fun _ => .arbitrate ..) fun _ => .refl s) h
  | pick g => exact served (.ite (fun picks => .pickWork ⟨picks.2.1, picks.1⟩) fun _ => .refl s) h
  | idleGapElapsed => exact served (.idleGap ..) h
  | stuck => exact served (.stuckLine ..) h
  | contention => exact served (.contend ..) h
  | breakRelease => exact served (.releaseBreak ..) h
  | acknowledgeSlot => exact served (.acknowledge ..) h
  | commandFrameSent => exact served (.frameSent ..) h
  | replyWindowTimeout => exact served (.replyTimeout ..) h
  | characterGapTimeout => exact served (.gapTimeout ..) h
  | replyCharacter => exact served (.replyChar ..) h
  | collision => exact served (.breakSeen ..) h
  | contestSlotsEnd => exact served (.slotsEnd ..) h
  | classCharacter => exact served (.classChar ..) h
  | classWindowTimeout => exact served (.classTimeout ..) h
  | pollTimerExpiry => exact served (.timerExpires ..) h
  | drainComplete => exact served (.drain s) h
  | resetTaken => exact served (.resetPulse ..) h
  | powerApplied => exact served (.takeReset s) h
  | resetReleased => exact served (.releaseReset s) h
  | settlingComplete => exact served (.settled ..) h
  | setupReadEnd => exact served (.readEnds ..) h
  | lineReturnsRecessive => exact served (.runEnds ..) h

/-- Settles O9, command by command. -/
theorem addressMapsStayInAgreement : Obligations.AddressMapsStayInAgreement := by
  intro s t maps engines hstep
  rw [← State.view_sound_iff]
  have sound : s.view.Sound := s.view_sound_iff.2 ⟨maps, engines⟩
  unfold step at hstep
  split at hstep
  · cases hstep
    exact (State.KeepsMaps.cycle s).sound sound
  · rename_i c rest _
    have queued : s.KeepsMaps { s with pending := rest } := .same rfl
    exact (queued.trans (exec_keepsMaps hstep)).sound sound

end Sys2Proof.Machine
end
